-- ==== Sys2Proof/Word.lean ====
section
/-! DEFINITION. The word and the byte of the videoscale core block (spec 00_scope.md R10). -/

namespace Sys2Proof

/-- A register, a command word or a bus datum: 32 bits (R10). -/
abbrev Word := BitVec 32

/-- One byte of memory: 8 bits (R10). -/
abbrev Byte := BitVec 8

end Sys2Proof
end

