-- ==== Sys2Proof/Config.lean ====
section
/-! DEFINITION. What an implementation fixes (spec 00_scope.md R9) and the free values the spec leaves open.
The parameters that an instance of the block may set, SAMPLE16_BE and TAPS, are the fields of `Params` (10_state.md R67;
log 16); the others are constants. The free values are opaque constants with no body: nothing in Lean can compute one or
prove a value of it. -/

namespace Sys2Proof.Config

/-- ADDR_BITS: the width of a memory address (R9, R80). -/
@[simp] def addrBits : Nat := 32

/-- REG_WINDOW: the size of the register window in bytes (R9, R34). -/
@[simp] def regWindow : Nat := 256

/-- FRAC_BITS: the fraction bits of a source coordinate (R9, R202). -/
@[simp] def fracBits : Nat := 16

/-- BL_SHIFT: the precision of a BILINEAR weight in bits (R9, R215). -/
@[simp] def blShift : Nat := 16

/-- PHASE_BITS: the bits of a 4TAP phase (R9, R221). -/
@[simp] def phaseBits : Nat := 8

/-- TAP_SHIFT: the precision of a 4TAP tap in bits (R9, R222). -/
@[simp] def tapShift : Nat := 10

/-- SCRATCH_ROWS: rows of scratch per effective destination stride (R9, R91). -/
@[simp] def scratchRows : Nat := 4

/-- DOWNGRADE_H: the source height below which 4TAP becomes BILINEAR (R9, R250). -/
@[simp] def downgradeH : Nat := 4

/-- MAX_DIM: the largest width or height (R9). -/
@[simp] def maxDim : Nat := 32767

/-- MIN_DIM: the smallest width or height (R9). -/
@[simp] def minDim : Nat := 1

/-- DIM_BITS: the width of a dimension field (R9, 10_state.md R51). -/
abbrev dimBits : Nat := 15

/-- NFORMATS: the number of formats of the catalog (R9, R121). -/
@[simp] def nFormats : Nat := 24

/-- ID_VALUE: the contents of the ID register (R9, R38). -/
@[simp] def idValue : Word := 0x56534331#32

/-- REG_BASE: the bus address of the register window, OPEN in the spec (R9, R34); log 1. -/
opaque regBase : Nat

/-- One row of the tap table: four signed taps (R9, 43_resample_kernels.md R221). -/
structure TapRow where
  /-- The tap of source index `ip - 1`. -/
  t0 : Int
  /-- The tap of source index `ip`. -/
  t1 : Int
  /-- The tap of source index `ip + 1`. -/
  t2 : Int
  /-- The tap of source index `ip + 2`. -/
  t3 : Int
  deriving DecidableEq, Repr

/-- TAPS: "default given by rule R222; a model may take another table as an argument" (R9). -/
inductive TapTable where
  /-- The default table, computed by 43_resample_kernels.md R222. -/
  | catmullRom
  /-- Another table, its rows from phase 0 on (R224). -/
  | rows (table : List TapRow)
  deriving DecidableEq, Repr

/-- The parameters an instance of the block fixes for its life (10_state.md R67; 93_implementation_defined.md U21,
U22). -/
structure Params where
  /-- SAMPLE16_BE: 16-bit samples are stored big-endian (R9, 20_memory.md R84). -/
  sample16BE : Bool
  /-- TAPS: the tap table of 4TAP (R9). -/
  taps : TapTable
  deriving DecidableEq, Repr

/-- The values R9 gives SAMPLE16_BE and TAPS. -/
def Params.standard : Params := ⟨false, .catmullRom⟩

/-- The platform's memory oracle: what a byte of memory that nothing has written holds (93_implementation_defined.md
U10, R68). A free value for every address; log 6. -/
opaque platformByte : Nat → Byte

/-- A free byte: the `n`-th draw of the machine, at one memory address (R92, R99, R350); logs 7, 10, 11. -/
opaque drawByte : (n : Nat) → (addr : Nat) → Byte

/-- A free 32-bit value: the `n`-th draw of the machine (R64); log 8. -/
opaque drawWord : (n : Nat) → Word

/-- A free choice between two values: the `n`-th draw of the machine (R45, R64); log 9. -/
opaque drawBit : (n : Nat) → Bool

end Sys2Proof.Config
end

