-- ==== Sys2Proof/Syntax.lean ====
section
/-! DEFINITION. The commands of the block: one constructor for each row of spec/opcode_table.json
(spec 30_encoding.md R113, R130), and the names of the values their fields take. -/

namespace Sys2Proof

/-- SEL: the frame a LAYOUT or LOCATE works on (R125). -/
inductive Sel where
  /-- SEL = 0: the source frame. -/
  | src
  /-- SEL = 1: the destination frame. -/
  | dst
  deriving DecidableEq, Repr

/-- FIELD: the field of a LOCATE or SCALE_PLANE (R126). -/
inductive Field where
  /-- FIELD = 0: the even physical scanlines, or the whole of a progressive frame. -/
  | f0
  /-- FIELD = 1: the odd physical scanlines. -/
  | f1
  deriving DecidableEq, Repr

/-- A command (R113, R130). A ROLE operand is the 2-bit code of R124, so that the reserved code 3 is a term the
well-formedness check refuses (R127 condition 6). -/
inductive Instr where
  /-- NOP (R275). -/
  | nop
  /-- LAYOUT src or dst (R160). -/
  | layout (sel : Sel)
  /-- LOCATE src or dst, role, field (R185). -/
  | locate (sel : Sel) (role : BitVec 2) (field : Field)
  /-- SCALE_PLANE.NEAREST role, field (R280). -/
  | scalePlaneNearest (role : BitVec 2) (field : Field)
  /-- SCALE_PLANE.BILINEAR role, field (R281). -/
  | scalePlaneBilinear (role : BitVec 2) (field : Field)
  /-- SCALE_PLANE.4TAP role, field (R282). -/
  | scalePlaneFourTap (role : BitVec 2) (field : Field)
  /-- RUN.NEAREST (R290). -/
  | runNearest
  /-- RUN.BILINEAR (R291). -/
  | runBilinear
  /-- RUN.4TAP (R292). -/
  | runFourTap
  /-- CLEAR (R276). -/
  | clear
  deriving DecidableEq, Repr

end Sys2Proof
end

