-- ==== Sys2Proof/WellFormed.lean ====
section
/-! DEFINITION. The checks of a command term: the static one (spec 30_encoding.md R127 condition 6) and the one that
reads FORMAT.INTERLACED (R127 condition 7). Every other condition of R127 is about words, and is the decoder's. -/

namespace Sys2Proof

/-- ROLE = 3 is reserved (R124); a command that names a role needs another code (R127 condition 6). -/
def roleAllowed (role : BitVec 2) : Bool := role != 3#2

/-- FIELD = 1 is legal only on interlaced content (R126, R127 condition 7). -/
def fieldAllowed (interlaced : Bool) (field : Field) : Bool := interlaced || field == .f0

/-- The well-formed commands: those some legal word encodes (R130, side condition r ≠ 3). -/
def Instr.wf : Instr → Bool
  | .nop | .layout _ | .runNearest | .runBilinear | .runFourTap | .clear => true
  | .locate _ role _ => roleAllowed role
  | .scalePlaneNearest role _ => roleAllowed role
  | .scalePlaneBilinear role _ => roleAllowed role
  | .scalePlaneFourTap role _ => roleAllowed role

/-- The decode check of 60_exceptions.md R316 step 1 on a command: well-formed, and FIELD = 1 only when
FORMAT.INTERLACED = 1 (R127 conditions 6 and 7). -/
def Instr.legal (interlaced : Bool) (i : Instr) : Bool :=
  i.wf && match i with
  | .nop | .layout _ | .runNearest | .runBilinear | .runFourTap | .clear => true
  | .locate _ _ field => fieldAllowed interlaced field
  | .scalePlaneNearest _ field => fieldAllowed interlaced field
  | .scalePlaneBilinear _ field => fieldAllowed interlaced field
  | .scalePlaneFourTap _ field => fieldAllowed interlaced field

end Sys2Proof
end

