-- ==== Sys2Proof/Decode.lean ====
section
/-! DEFINITION. The decoder of command words, total on every 32-bit word and rejecting by name (spec 30_encoding.md
R110 to R113, R127), the encoder (R130), and the opcode table R130 itself as data. -/

namespace Sys2Proof

/-- Why a word is no command: the conditions 1 to 6 of R127. -/
inductive DecodeError where
  /-- Condition 1: OP is 6 to 15. -/
  | reservedOp
  /-- Condition 2: a reserved bit, one of [7:6], [9] and [31:13], is 1. -/
  | reservedBit
  /-- Condition 3: a field the OP does not use is nonzero. -/
  | unusedField
  /-- Condition 4: OP = 5 in a word other than 0x00000005. -/
  | clearSpelling
  /-- Condition 5: METHOD = 3 in a SCALE_PLANE or RUN. -/
  | reservedMethod
  /-- Condition 6: ROLE = 3 in a LOCATE or SCALE_PLANE. -/
  | reservedRole
  deriving DecidableEq, Repr

/-- The fields of a command word (R110, R111): each read as an unsigned value. -/
structure Fields where
  /-- OP, bits [3:0]. -/
  op : BitVec 4
  /-- METHOD, bits [5:4]. -/
  method : BitVec 2
  /-- SEL, bit [8]. -/
  sel : BitVec 1
  /-- ROLE, bits [11:10]. -/
  role : BitVec 2
  /-- FIELD, bit [12]. -/
  field : BitVec 1
  /-- The reserved bits [7:6]. -/
  res76 : BitVec 2
  /-- The reserved bit [9]. -/
  res9 : BitVec 1
  /-- The reserved bits [31:13]. -/
  res31 : BitVec 19
  deriving DecidableEq, Repr

/-- Split a word into its fields (R110). -/
def fieldsOf (w : Word) : Fields where
  op := w.extractLsb' 0 4
  method := w.extractLsb' 4 2
  res76 := w.extractLsb' 6 2
  sel := w.extractLsb' 8 1
  res9 := w.extractLsb' 9 1
  role := w.extractLsb' 10 2
  field := w.extractLsb' 12 1
  res31 := w.extractLsb' 13 19

/-- SEL = 0 is the source, SEL = 1 the destination (R125). -/
def selOf (b : BitVec 1) : Sel := if b = 0#1 then .src else .dst

/-- FIELD = 0 is field 0, FIELD = 1 is field 1 (R126). -/
def fieldOf (b : BitVec 1) : Field := if b = 0#1 then .f0 else .f1

/-- The command that fields stand for, or the condition of R127 they break. -/
def decodeFields (f : Fields) : Except DecodeError Instr :=
  if f.res76 ≠ 0#2 ∨ f.res9 ≠ 0#1 ∨ f.res31 ≠ 0#19 then
    .error (if f.op = 5#4 then .clearSpelling else .reservedBit)
  else match f.op.toNat with
  | 0 => if f.method ≠ 0#2 ∨ f.sel ≠ 0#1 ∨ f.role ≠ 0#2 ∨ f.field ≠ 0#1 then .error .unusedField else .ok .nop
  | 1 => if f.method ≠ 0#2 ∨ f.role ≠ 0#2 ∨ f.field ≠ 0#1 then .error .unusedField else .ok (.layout (selOf f.sel))
  | 2 =>
    if f.method ≠ 0#2 then .error .unusedField
    else if f.role = 3#2 then .error .reservedRole
    else .ok (.locate (selOf f.sel) f.role (fieldOf f.field))
  | 3 =>
    if f.sel ≠ 0#1 then .error .unusedField
    else if f.role = 3#2 then .error .reservedRole
    else match f.method.toNat with
      | 0 => .ok (.scalePlaneNearest f.role (fieldOf f.field))
      | 1 => .ok (.scalePlaneBilinear f.role (fieldOf f.field))
      | 2 => .ok (.scalePlaneFourTap f.role (fieldOf f.field))
      | _ => .error .reservedMethod
  | 4 =>
    if f.sel ≠ 0#1 ∨ f.role ≠ 0#2 ∨ f.field ≠ 0#1 then .error .unusedField
    else match f.method.toNat with
      | 0 => .ok .runNearest
      | 1 => .ok .runBilinear
      | 2 => .ok .runFourTap
      | _ => .error .reservedMethod
  | 5 => if f.method ≠ 0#2 ∨ f.sel ≠ 0#1 ∨ f.role ≠ 0#2 ∨ f.field ≠ 0#1 then .error .clearSpelling else .ok .clear
  | _ => .error .reservedOp

/-- The decoder: the command a word stands for in either interlace state (R130), or why it is illegal (R127 conditions
1 to 6). Condition 7 reads FORMAT and is checked when the command completes. -/
def decode (w : Word) : Except DecodeError Instr := decodeFields (fieldsOf w)

/-- The SEL bit of a frame selection (R125). -/
def Sel.bit : Sel → BitVec 1
  | .src => 0#1
  | .dst => 1#1

/-- The FIELD bit of a field (R126). -/
def Field.bit : Field → BitVec 1
  | .f0 => 0#1
  | .f1 => 1#1

/-- A word from its fields, the reserved bits 0 (R110). -/
def assemble (op : BitVec 4) (method : BitVec 2) (sel : BitVec 1) (role : BitVec 2) (field : BitVec 1) : Word :=
  (0#19 ++ field ++ role ++ 0#1 ++ sel ++ 0#2 ++ method ++ op : BitVec 32)

/-- The word of a command (R130). -/
def encode : Instr → Word
  | .nop => assemble 0#4 0#2 0#1 0#2 0#1
  | .layout sel => assemble 1#4 0#2 sel.bit 0#2 0#1
  | .locate sel role field => assemble 2#4 0#2 sel.bit role field.bit
  | .scalePlaneNearest role field => assemble 3#4 0#2 0#1 role field.bit
  | .scalePlaneBilinear role field => assemble 3#4 1#2 0#1 role field.bit
  | .scalePlaneFourTap role field => assemble 3#4 2#2 0#1 role field.bit
  | .runNearest => assemble 4#4 0#2 0#1 0#2 0#1
  | .runBilinear => assemble 4#4 1#2 0#1 0#2 0#1
  | .runFourTap => assemble 4#4 2#2 0#1 0#2 0#1
  | .clear => assemble 5#4 0#2 0#1 0#2 0#1

/-- One row of the opcode table R130: a word `w` is the row's when `w &&& mask = pattern`. -/
structure OpcodeRow where
  /-- The row's mnemonic, as the table spells it. -/
  mnemonic : String
  /-- The value of the fixed bits. -/
  pattern : Word
  /-- The fixed bits. -/
  mask : Word
  deriving DecidableEq, Repr

/-- Whether a word is the row's (R130). -/
def OpcodeRow.covers (r : OpcodeRow) (w : Word) : Bool := w &&& r.mask == r.pattern

/-- The row of a command in the table R130. -/
def Instr.row : Instr → OpcodeRow
  | .nop => ⟨"NOP", 0x00000000#32, 0xFFFFFFFF#32⟩
  | .layout _ => ⟨"LAYOUT", 0x00000001#32, 0xFFFFFEFF#32⟩
  | .locate _ _ _ => ⟨"LOCATE", 0x00000002#32, 0xFFFFE2FF#32⟩
  | .scalePlaneNearest _ _ => ⟨"SCALE_PLANE.NEAREST", 0x00000003#32, 0xFFFFE3FF#32⟩
  | .scalePlaneBilinear _ _ => ⟨"SCALE_PLANE.BILINEAR", 0x00000013#32, 0xFFFFE3FF#32⟩
  | .scalePlaneFourTap _ _ => ⟨"SCALE_PLANE.4TAP", 0x00000023#32, 0xFFFFE3FF#32⟩
  | .runNearest => ⟨"RUN.NEAREST", 0x00000004#32, 0xFFFFFFFF#32⟩
  | .runBilinear => ⟨"RUN.BILINEAR", 0x00000014#32, 0xFFFFFFFF#32⟩
  | .runFourTap => ⟨"RUN.4TAP", 0x00000024#32, 0xFFFFFFFF#32⟩
  | .clear => ⟨"CLEAR", 0x00000005#32, 0xFFFFFFFF#32⟩

/-- The opcode table R130, in its order. -/
def opcodeTable : List OpcodeRow :=
  [Instr.nop.row, (Instr.layout .src).row, (Instr.locate .src 0#2 .f0).row, (Instr.scalePlaneNearest 0#2 .f0).row,
   (Instr.scalePlaneBilinear 0#2 .f0).row, (Instr.scalePlaneFourTap 0#2 .f0).row, Instr.runNearest.row,
   Instr.runBilinear.row, Instr.runFourTap.row, Instr.clear.row]

/-- The 32-bit word whose bits below `nbits` are those of `w` and whose bits from `nbits` up are 0: a command is one
32-bit word and has no byte order of its own (R110, R129); log 17. -/
def tableWord (nbits w : Nat) : Word := BitVec.ofNat 32 (w % 2 ^ nbits)

/-- The instruction the decoder reads from a table row's word; none where it refuses, or where the row is longer than
a command word (R129). -/
def decodeTableWord (nbits w : Nat) : Option Instr :=
  if nbits > 32 then none else (decode (tableWord nbits w)).toOption

end Sys2Proof
end

