-- ==== Sys2Proof/Machine/State.lean ====
section
/-! DEFINITION. The state of the block and of the host's side of it, as plain data; the reasons a step stops; the
machine right after reset (spec 10_state.md, 70_reset_and_hazards.md R350, R351). -/

namespace Sys2Proof.Machine

/-- STATUS (10_state.md R39), its fields at their widths; the reserved bits read 0 (R36) and are not held. -/
structure Status where
  /-- [0] a command is in flight (R40). -/
  busy : Bool
  /-- [1] the last completion was successful (R41). -/
  done : Bool
  /-- [2] the last completion was an error (R42). -/
  err : Bool
  /-- [3] sticky: a write was ignored because BUSY was 1 (R43). -/
  wign : Bool
  /-- [11:8] the error code of the last error completion (R44). -/
  errcode : BitVec 4
  /-- [13:12] the sequencer state (R45). -/
  seq : BitVec 2
  /-- [15:14] the method last used, after the downgrade (R46). -/
  effm : BitVec 2
  /-- [19:16] the OP of the last accepted word (R47). -/
  lastOp : BitVec 4
  deriving DecidableEq, Repr

/-- IRQ_EN (10_state.md R49). -/
structure IrqEn where
  /-- [0] DONE_IE. -/
  doneIe : Bool
  /-- [1] ERR_IE. -/
  errIe : Bool
  deriving DecidableEq, Repr

/-- FORMAT (10_state.md R50). -/
structure FormatReg where
  /-- [4:0] FMT, the code of 30_encoding.md R120. -/
  fmt : BitVec 5
  /-- [8] INTERLACED. -/
  interlaced : Bool
  deriving DecidableEq, Repr

/-- SRC_DIM or DST_DIM (10_state.md R51, R52). -/
structure Dim where
  /-- [14:0] W. -/
  w : BitVec Config.dimBits
  /-- [30:16] H. -/
  h : BitVec Config.dimBits
  deriving DecidableEq, Repr

/-- The six registers of one plane of the layout result file (10_state.md R61). -/
structure PlaneRegs where
  /-- L_Pp_W. -/
  w : Word
  /-- L_Pp_H. -/
  h : Word
  /-- L_Pp_STRIDE. -/
  stride : Word
  /-- L_Pp_OFFSET. -/
  offset : Word
  /-- L_Pp_SIZE. -/
  size : Word
  /-- L_Pp_ROLE, bits [1:0]. -/
  role : BitVec 2
  deriving DecidableEq, Repr

/-- The locator result file LOC_PTR, LOC_W, LOC_H, LOC_STRIDE (10_state.md R62). -/
structure LocRegs where
  /-- LOC_PTR. -/
  ptr : Word
  /-- LOC_W. -/
  w : Word
  /-- LOC_H. -/
  h : Word
  /-- LOC_STRIDE. -/
  stride : Word
  deriving DecidableEq, Repr

/-- Memory: the bytes something has written, as (address, byte) pairs. An address it does not list holds no value of
its own and reads as the platform's byte (93_implementation_defined.md U10; log 6). -/
abbrev Memory := List Host.Cell

/-- The canonical form of memory: addresses strictly rising. An unlisted address holds no value, so no entry can equal
what an unlisted address holds. -/
abbrev Memory.wf (m : Memory) : Prop := (m.map Prod.fst).Pairwise (· < ·)

/-- Every listed address lies in the address space [0, 2^32) of 20_memory.md R80. -/
abbrev Memory.inSpace (m : Memory) : Prop := ∀ c ∈ m, c.1 < 2 ^ Config.addrBits

/-- What the host does, or lets happen, in one step (10_state.md R30, R34; 70_reset_and_hazards.md R350). A register
access names its size in bytes and its offset from REG_BASE (log 1). -/
inductive HostEvent where
  /-- A bus write of `value` to the register window (30_encoding.md R132, WR). -/
  | regWrite (bytes : Nat) (offset : Int) (value : Word)
  /-- A bus read of the register window (RD). -/
  | regRead (bytes : Nat) (offset : Int)
  /-- A byte write to memory (MEM8). -/
  | memWrite (addr : Word) (value : Byte)
  /-- A byte read of memory. -/
  | memRead (addr : Word)
  /-- The reset input is asserted (70_reset_and_hazards.md R350). -/
  | reset
  /-- The host makes no access and the block takes its turn (45_commands.md R271; log 2). -/
  | blockTurn
  deriving DecidableEq, Repr

/-- Why the machine stops with a fault. -/
inductive Fault where
  /-- Raised by a host read of STATUS that shows ERRCODE 2, 3 or 11 to 15, which no command reports: "treat as
  internal-invariant violation if observed" (60_exceptions.md R312; 93_implementation_defined.md U15, U16). Safe: no
  state a run reaches holds such a code. -/
  | impossibleErrorCode (code : BitVec 4)
  deriving DecidableEq, Repr

/-- Why a step has no meaning. -/
inductive Refusal where
  /-- Raised by an arm of `exec` whose instruction has no meaning yet. Safe. No arm does. -/
  | notModelled (mnemonic : String)
  /-- Raised by a register access that is not an aligned 32-bit access inside the window: "A model refuses such an
  access: it has no step" (10_state.md R34; 60_exceptions.md R344). Safe. -/
  | registerAccess (bytes : Nat) (offset : Int)
  deriving DecidableEq, Repr

/-- The state of the machine: every register of 10_state.md R37, CUR_CMD (R66) and memory, then the model's own
fields. -/
structure State where
  /-- STATUS (R39). -/
  status : Status
  /-- IRQ_EN (R49). -/
  irqEn : IrqEn
  /-- FORMAT (R50). -/
  format : FormatReg
  /-- SRC_DIM (R51). -/
  srcDim : Dim
  /-- DST_DIM (R52). -/
  dstDim : Dim
  /-- SRC_BASE (R53). -/
  srcBase : Word
  /-- SRC_SIZE (R54). -/
  srcSize : Word
  /-- DST_BASE (R55). -/
  dstBase : Word
  /-- DST_SIZE (R56). -/
  dstSize : Word
  /-- SCR_BASE (R57). -/
  scrBase : Word
  /-- SCR_SIZE (R58). -/
  scrSize : Word
  /-- L_NPLANES, bits [1:0] (R59). -/
  lNplanes : BitVec 2
  /-- L_TOTAL (R60). -/
  lTotal : Word
  /-- L_P0_* (R61). -/
  lp0 : PlaneRegs
  /-- L_P1_* (R61). -/
  lp1 : PlaneRegs
  /-- L_P2_* (R61). -/
  lp2 : PlaneRegs
  /-- LOC_* (R62). -/
  loc : LocRegs
  /-- CUR_CMD, the word in flight, or empty (R66). -/
  curCmd : Option Word
  /-- The memory of 20_memory.md R80. -/
  mem : Memory
  /-- MODEL: the parameters of this instance of the block, which no step changes (R67; log 16). -/
  params : Config.Params
  /-- MODEL: the host has written into a buffer region while the command in flight was BUSY (20_memory.md R99; log 10). -/
  hazard : Bool
  /-- MODEL: how many free values have been drawn (log 7). -/
  draws : Nat
  /-- MODEL: what the host's last read returned (log 13). -/
  hostData : Word
  /-- MODEL: what the host does next, and where the block takes its turn (log 2). -/
  schedule : List HostEvent
  deriving DecidableEq, Repr

/-- STATUS after reset (70_reset_and_hazards.md R351). -/
def Status.reset : Status where
  busy := false
  done := false
  err := false
  wign := false
  errcode := 0#4
  seq := 0#2
  effm := 0#2
  lastOp := 0#4

/-- One plane's L_ registers after reset, and where a layout has no such plane (10_state.md R61). -/
def PlaneRegs.zero : PlaneRegs := ⟨0#32, 0#32, 0#32, 0#32, 0#32, 0#2⟩

/-- The LOC_ registers after reset (10_state.md R62). -/
def LocRegs.zero : LocRegs := ⟨0#32, 0#32, 0#32, 0#32⟩

/-- The machine right after reset (10_state.md R68; 70_reset_and_hazards.md R350, R351). The model's own fields start
as log 12 says; memory lists nothing (log 6). -/
def State.reset : State where
  status := Status.reset
  irqEn := ⟨false, false⟩
  format := ⟨0#5, false⟩
  srcDim := ⟨0#15, 0#15⟩
  dstDim := ⟨0#15, 0#15⟩
  srcBase := 0#32
  srcSize := 0#32
  dstBase := 0#32
  dstSize := 0#32
  scrBase := 0#32
  scrSize := 0#32
  lNplanes := 0#2
  lTotal := 0#32
  lp0 := PlaneRegs.zero
  lp1 := PlaneRegs.zero
  lp2 := PlaneRegs.zero
  loc := LocRegs.zero
  curCmd := none
  mem := []
  params := Config.Params.standard
  hazard := false
  draws := 0
  hostData := 0#32
  schedule := []

end Sys2Proof.Machine
end

