-- ==== Sys2Proof/Machine/Flags.lean ====
section
/-! DEFINITION. Every flag the block has: the fields of STATUS, how each command step changes them, the words STATUS
and IRQ_EN read as, and the interrupt output (spec 10_state.md R39 to R49, R65; 60_exceptions.md R310, R330). No kernel
writes a flag (R65). -/

namespace Sys2Proof.Machine

/-- The error kinds of 60_exceptions.md R310. -/
inductive ErrorCode where
  /-- 1: FORMAT.FMT is outside the catalog (R311). -/
  | unsupportedFormat
  /-- 2: never raised (R312). -/
  | unsupportedMethodForFormat
  /-- 3: never raised (R312). -/
  | numericOverflow
  /-- 4: a buffer size does not fit the layout (R313). -/
  | geometryMismatch
  /-- 5: the command word is illegal (R314). -/
  | illegalCommand
  /-- 6: a dimension or a source field height is 0 (R315). -/
  | invalidDimension
  /-- 7: SCR_SIZE is below the requirement (R319). -/
  | scratchTooSmall
  /-- 8: ROLE names a plane the format lacks (R317). -/
  | planeRoleInvalid
  /-- 9: two regions intersect (R319). -/
  | bufferOverlap
  /-- 10: a region ends beyond 2^32 (R318). -/
  | addressOverflow
  deriving DecidableEq, Repr

/-- The code STATUS.ERRCODE holds for an error kind (R310). -/
def ErrorCode.bits : ErrorCode → BitVec 4
  | .unsupportedFormat => 1#4
  | .unsupportedMethodForFormat => 2#4
  | .numericOverflow => 3#4
  | .geometryMismatch => 4#4
  | .illegalCommand => 5#4
  | .invalidDimension => 6#4
  | .scratchTooSmall => 7#4
  | .planeRoleInvalid => 8#4
  | .bufferOverlap => 9#4
  | .addressOverflow => 10#4

/-- The codes no command reports: 2, 3 and 11 to 15 (R310, R312). -/
def neverRaised (code : BitVec 4) : Bool := code == 2#4 || code == 3#4 || decide (11 ≤ code.toNat)

/-- The OP code of RUN (30_encoding.md R113). -/
def opRun : BitVec 4 := 4#4

/-- SEQ = 0, Idle (10_state.md R45). -/
def seqIdle : BitVec 2 := 0#2

/-- SEQ = 1, PerField(0) (R45). -/
def seqField0 : BitVec 2 := 1#2

/-- SEQ = 2, PerField(1) (R45). -/
def seqField1 : BitVec 2 := 2#2

/-- SEQ = 3, Done (R45). -/
def seqDone : BitVec 2 := 3#2

/-- STATUS at the acceptance of a command other than CLEAR, whose OP field is `op` (45_commands.md R270). -/
def Status.accept (op : BitVec 4) (st : Status) : Status :=
  { st with
    lastOp := op, busy := true, done := false, err := false, errcode := 0#4,
    seq := if op = opRun then seqField0 else st.seq }

/-- STATUS at a successful completion; SEQ becomes 3 for RUN and 0 otherwise (45_commands.md R271). -/
def Status.succeed (isRun : Bool) (st : Status) : Status :=
  { st with busy := false, done := true, seq := if isRun then seqDone else seqIdle }

/-- STATUS at an error completion (60_exceptions.md R320). -/
def Status.fail (code : ErrorCode) (st : Status) : Status :=
  { st with busy := false, err := true, done := false, errcode := code.bits, seq := seqIdle }

/-- STATUS after a CLEAR (45_commands.md R276), LAST_OP included (R270). -/
def Status.cleared (st : Status) : Status :=
  { st with done := false, err := false, errcode := 0#4, wign := false, seq := seqIdle, lastOp := 5#4 }

/-- The word STATUS reads as when its SEQ field reads `seq` (10_state.md R39; reserved bits 0, R36). -/
def Status.toWordWith (seq : BitVec 2) (st : Status) : Word :=
  (0#12 ++ st.lastOp ++ st.effm ++ seq ++ st.errcode ++ 0#4 ++ BitVec.ofBool st.wign ++ BitVec.ofBool st.err
    ++ BitVec.ofBool st.done ++ BitVec.ofBool st.busy : BitVec 32)

/-- The word STATUS reads as while BUSY = 0 (R39). -/
def Status.toWord (st : Status) : Word := st.toWordWith st.seq

/-- The word IRQ_EN reads as (R49). -/
def IrqEn.toWord (r : IrqEn) : Word := (0#30 ++ BitVec.ofBool r.errIe ++ BitVec.ofBool r.doneIe : BitVec 32)

/-- What a write to IRQ_EN stores (R49, R36). -/
def IrqEn.ofWord (v : Word) : IrqEn := ⟨v.getLsbD 0, v.getLsbD 1⟩

/-- The interrupt output (60_exceptions.md R330): level-sensitive, a function of IRQ_EN and STATUS alone. -/
def State.irq (s : State) : Bool := (s.irqEn.doneIe && s.status.done) || (s.irqEn.errIe && s.status.err)

end Sys2Proof.Machine
end

