-- ==== Sys2Proof/Machine/Operands.lean ====
section
/-! DEFINITION. The operands of the commands: the codes of their fields and of FORMAT (spec 30_encoding.md R120 to
R126), the frame a SEL selects, the buffer regions (20_memory.md R81), and the effective method (44_chroma_dispatch.md
R250), with the arithmetic helpers of 00_scope.md R12. -/

namespace Sys2Proof.Machine

/-- `ceil_div(a, b)` (R12). -/
def ceilDiv (a b : Nat) : Nat := (a + b - 1) / b

/-- `roundN(v)`: the smallest multiple of `n` that is at least `v` (R12). -/
def roundUp (n v : Nat) : Nat := (v + n - 1) / n * n

/-- A resampling method (R122). -/
inductive Method where
  /-- METHOD = 0. -/
  | nearest
  /-- METHOD = 1. -/
  | bilinear
  /-- METHOD = 2. -/
  | fourTap
  deriving DecidableEq, Repr

/-- The code of a method, in METHOD and in STATUS.EFFM (R122, R46). -/
def Method.code : Method → BitVec 2
  | .nearest => 0#2
  | .bilinear => 1#2
  | .fourTap => 2#2

/-- The component a plane carries (R124). -/
inductive Role where
  /-- ROLE = 0: luma, or the single plane of a packed format. -/
  | y
  /-- ROLE = 1: the first chroma plane. -/
  | u
  /-- ROLE = 2: the second chroma plane. -/
  | v
  deriving DecidableEq, Repr

/-- The code of a role (R124). -/
def Role.code : Role → BitVec 2
  | .y => 0#2
  | .u => 1#2
  | .v => 2#2

/-- The role of a ROLE field; code 3 is reserved (R124). -/
def Role.ofCode (c : BitVec 2) : Option Role :=
  if c = 0#2 then some .y else if c = 1#2 then some .u else if c = 2#2 then some .v else none

/-- The 24 formats of the catalog (R120, R121), in its order. -/
inductive Format where
  | rgba | argb | bgra | abgr | rgbx | xrgb | bgrx | xbgr | ayuv | y444 | v308 | rgb | bgr | y42b | yuy2 | yvyu | uyvy
  | i420 | yv12 | y41b | rgb565 | rgb555 | gray16 | gray8
  deriving DecidableEq, Repr

/-- The catalog: format number `i` of the list has FMT code `i` (R120). -/
def catalog : List Format :=
  [.rgba, .argb, .bgra, .abgr, .rgbx, .xrgb, .bgrx, .xbgr, .ayuv, .y444, .v308, .rgb, .bgr, .y42b, .yuy2, .yvyu, .uyvy,
   .i420, .yv12, .y41b, .rgb565, .rgb555, .gray16, .gray8]

/-- The format of a FORMAT.FMT code; 24 to 31 are outside the catalog (R120, R311). -/
def Format.ofCode (c : BitVec 5) : Option Format := if c.toNat < Config.nFormats then catalog[c.toNat]? else none

/-- The layout class of a format (R120, column "class"; 41_geometry.md R142). -/
inductive LayoutClass where
  /-- Packed 4-channel, FMT 0 to 8. -/
  | packed4
  /-- Packed 3-channel, FMT 10 to 12. -/
  | packed3
  /-- Packed 4:2:2, FMT 14 to 16. -/
  | packed422
  /-- Packed 16-bit, FMT 20 to 22. -/
  | packed16
  /-- Packed 8-bit, FMT 23. -/
  | packed8
  /-- Planar 4:4:4, FMT 9. -/
  | planar444
  /-- Planar 4:2:2, FMT 13. -/
  | planar422
  /-- Planar 4:1:1, FMT 19. -/
  | planar411
  /-- Planar 4:2:0, FMT 17 and 18. -/
  | planar420
  deriving DecidableEq, Repr

/-- The class of each format (R120). -/
def Format.layoutClass : Format → LayoutClass
  | .rgba | .argb | .bgra | .abgr | .rgbx | .xrgb | .bgrx | .xbgr | .ayuv => .packed4
  | .v308 | .rgb | .bgr => .packed3
  | .yuy2 | .yvyu | .uyvy => .packed422
  | .rgb565 | .rgb555 | .gray16 => .packed16
  | .gray8 => .packed8
  | .y444 => .planar444
  | .y42b => .planar422
  | .y41b => .planar411
  | .i420 | .yv12 => .planar420

/-- The roles of chroma planes 1 and 2 of a planar format: U then V, but V then U for YV12 (41_geometry.md R148). -/
def Format.chromaRoles : Format → Role × Role
  | .yv12 => (.v, .u)
  | _ => (.u, .v)

/-- The dimension register SEL selects (R125). -/
def State.dimOf (s : State) : Sel → Dim
  | .src => s.srcDim
  | .dst => s.dstDim

/-- The base register SEL selects (R125). -/
def State.baseOf (s : State) : Sel → Word
  | .src => s.srcBase
  | .dst => s.dstBase

/-- The frame dimensions a command needs are in MIN_DIM to MAX_DIM (60_exceptions.md R315, R316 step 3; R9): a 15-bit
field holds no more, and less is 0. -/
def Dim.inRange (d : Dim) : Bool :=
  decide (Config.minDim ≤ d.w.toNat ∧ d.w.toNat ≤ Config.maxDim ∧ Config.minDim ≤ d.h.toNat ∧ d.h.toNat ≤ Config.maxDim)

/-- The effective method (44_chroma_dispatch.md R250): 4TAP becomes BILINEAR when the source FRAME height is below
DOWNGRADE_H, whatever the plane, the field or the width (R251 to R253). -/
def State.effMethod (s : State) : Method → Method
  | .nearest => .nearest
  | .bilinear => .bilinear
  | .fourTap => if s.srcDim.h.toNat < Config.downgradeH then .bilinear else .fourTap

/-- A half-open byte range of memory (20_memory.md R81). -/
structure Region where
  /-- The first byte's address. -/
  base : Nat
  /-- The number of bytes. -/
  size : Nat
  deriving DecidableEq, Repr

/-- SRC_REGION (R81). -/
def State.srcRegion (s : State) : Region := ⟨s.srcBase.toNat, s.srcSize.toNat⟩

/-- DST_REGION (R81). -/
def State.dstRegion (s : State) : Region := ⟨s.dstBase.toNat, s.dstSize.toNat⟩

/-- SCR_REGION (R81). -/
def State.scrRegion (s : State) : Region := ⟨s.scrBase.toNat, s.scrSize.toNat⟩

/-- Whether an address lies in a region. -/
def Region.covers (r : Region) (a : Nat) : Bool := decide (r.base ≤ a) && decide (a < r.base + r.size)

/-- Whether a region runs beyond the address space, computed without wrap-around (60_exceptions.md R318). -/
def Region.overflows (r : Region) : Bool := decide (2 ^ Config.addrBits < r.base + r.size)

/-- Whether two regions intersect, `a < b + y and b < a + x` (60_exceptions.md R319). -/
def Region.intersects (r q : Region) : Bool := decide (r.base < q.base + q.size) && decide (q.base < r.base + r.size)

/-- The addresses of a region, in rising order. -/
def Region.addrs (r : Region) : List Nat := (List.range r.size).map (r.base + ·)

end Sys2Proof.Machine
end

