-- ==== Sys2Proof/Machine/Ops.lean ====
section
/-! DEFINITION. The named operations over memory and registers (spec 20_memory.md R80 to R89; 10_state.md R34 to R64),
the acceptance of a command (45_commands.md R270), its successful completion (R271), and its error completion, the one
exception the block has (60_exceptions.md R320). There is no return from it (R341). -/

namespace Sys2Proof.Machine

/-- The byte memory lists at an address, if any. -/
def Memory.get? : Memory → Nat → Option Byte
  | [], _ => none
  | (b, v) :: m, a => if a = b then some v else Memory.get? m a

/-- MemRead8 (00_scope.md R13): the listed byte, or the platform's byte where nothing has been written (log 6). -/
def Memory.read8 (m : Memory) (a : Nat) : Byte := (m.get? a).getD (Config.platformByte a)

/-- MemWrite8 (R13): changes the addressed byte only (20_memory.md R89) and keeps the addresses rising. -/
def Memory.write8 (a : Nat) (v : Byte) : Memory → Memory
  | [] => [(a, v)]
  | (b, w) :: m =>
    if a < b then (a, v) :: (b, w) :: m
    else if a = b then (a, v) :: m
    else (b, w) :: Memory.write8 a v m

/-- Byte writes one after another, the first of the list first. -/
def Memory.writeAll (cells : List Host.Cell) (m : Memory) : Memory :=
  cells.foldl (fun m c => m.write8 c.1 c.2) m

/-- MemRead16 (20_memory.md R84): the sample at `a` and `a + 1`; `be` is SAMPLE16_BE. -/
def Memory.read16 (be : Bool) (m : Memory) (a : Nat) : Nat :=
  if be then 256 * (m.read8 a).toNat + (m.read8 (a + 1)).toNat
  else (m.read8 a).toNat + 256 * (m.read8 (a + 1)).toNat

/-- The byte writes of MemWrite16 (R84): `v[7:0]` and `v[15:8]` at `a` and `a + 1`, swapped when `be`. -/
def cells16 (be : Bool) (a v : Nat) : List Host.Cell :=
  let lo := BitVec.ofNat 8 v
  let hi := BitVec.ofNat 8 (v / 256)
  if be then [(a, hi), (a + 1, lo)] else [(a, lo), (a + 1, hi)]

/-- The byte write of MemWrite8 as a list (R13). -/
def cells8 (a v : Nat) : List Host.Cell := [(a, BitVec.ofNat 8 v)]

/-- Free bytes for a list of addresses, all of the draw number `n` (20_memory.md R92; log 7). -/
def drawnCells (n : Nat) (addrs : List Nat) : List Host.Cell := addrs.map fun a => (a, Config.drawByte n a)

/-- The machine's memory after byte writes. -/
def State.writeCells (cells : List Host.Cell) (s : State) : State := { s with mem := s.mem.writeAll cells }

/-- The machine after one more free value has been drawn (log 7). -/
def State.drawn (s : State) : State := { s with draws := s.draws + 1 }

/-- Whether an address lies in one of the three buffer regions (20_memory.md R81, R99). -/
def State.inBuffers (s : State) (a : Nat) : Bool :=
  s.srcRegion.covers a || s.dstRegion.covers a || s.scrRegion.covers a

/-- Acceptance of the word `w`, not a CLEAR (45_commands.md R270). It checks nothing: illegal words are accepted too. -/
def State.acceptWord (w : Word) (s : State) : State :=
  { s with curCmd := some w, status := s.status.accept (w.extractLsb' 0 4), hazard := false }

/-- Successful completion (45_commands.md R271). CUR_CMD becomes empty: no command is in flight any more (10_state.md
R66; log 5). -/
def State.succeed (isRun : Bool) (s : State) : State :=
  { s with status := s.status.succeed isRun, curCmd := none, hazard := false }

/-- Error completion (60_exceptions.md R320): the block's only exception. STATUS records it, CUR_CMD becomes empty, no
other register and no byte of memory changes (R321). -/
def State.fail (code : ErrorCode) (s : State) : State :=
  { s with status := s.status.fail code, curCmd := none, hazard := false }

/-- STATUS.EFFM takes the effective method of a SCALE_PLANE or RUN past its decode check (10_state.md R46). -/
def State.recordMethod (m : Method) (s : State) : State :=
  { s with status := { s.status with effm := m.code } }

/-- An ignored write while BUSY (10_state.md R43, R63). -/
def State.ignoreWrite (s : State) : State := { s with status := { s.status with wign := true } }

/-- The registers of one plane of the layout result file (10_state.md R37). -/
inductive PlaneReg where
  | w | h | stride | offset | size | role
  deriving DecidableEq, Repr

/-- The registers of the window (10_state.md R37). -/
inductive Reg where
  | id | status | cmd | irqEn | format | srcDim | dstDim | srcBase | srcSize | dstBase | dstSize | scrBase | scrSize
  | lNplanes | lTotal | lPlane (p : Fin 3) (r : PlaneReg) | locPtr | locW | locH | locStride
  deriving DecidableEq, Repr

/-- How the host may access a register (R37). -/
inductive Access where
  /-- RO: writes are ignored and do not set WIGN. -/
  | readOnly
  /-- RW. -/
  | readWrite
  /-- WO: reads return 0. -/
  | writeOnly
  deriving DecidableEq, Repr

/-- The plane register at a distance from the plane's first register (R37). -/
def PlaneReg.ofOffset : Nat → Option PlaneReg
  | 0x00 => some .w
  | 0x04 => some .h
  | 0x08 => some .stride
  | 0x0C => some .offset
  | 0x10 => some .size
  | 0x14 => some .role
  | _ => none

/-- The register at an offset of the window; none at an offset the map does not list (R35, R37). -/
def Reg.ofOffset (offset : Nat) : Option Reg :=
  match offset with
  | 0x000 => some .id
  | 0x004 => some .status
  | 0x008 => some .cmd
  | 0x00C => some .irqEn
  | 0x010 => some .format
  | 0x014 => some .srcDim
  | 0x018 => some .dstDim
  | 0x01C => some .srcBase
  | 0x020 => some .srcSize
  | 0x024 => some .dstBase
  | 0x028 => some .dstSize
  | 0x02C => some .scrBase
  | 0x030 => some .scrSize
  | 0x040 => some .lNplanes
  | 0x044 => some .lTotal
  | 0x0C0 => some .locPtr
  | 0x0C4 => some .locW
  | 0x0C8 => some .locH
  | 0x0CC => some .locStride
  | o =>
    if 0x060 ≤ o ∧ o < 0x080 then (PlaneReg.ofOffset (o - 0x060)).map (.lPlane 0)
    else if 0x080 ≤ o ∧ o < 0x0A0 then (PlaneReg.ofOffset (o - 0x080)).map (.lPlane 1)
    else if 0x0A0 ≤ o ∧ o < 0x0C0 then (PlaneReg.ofOffset (o - 0x0A0)).map (.lPlane 2)
    else none

/-- The access column of R37. -/
def Reg.access : Reg → Access
  | .id | .status | .lNplanes | .lTotal | .lPlane _ _ | .locPtr | .locW | .locH | .locStride => .readOnly
  | .cmd => .writeOnly
  | .irqEn | .format | .srcDim | .dstDim | .srcBase | .srcSize | .dstBase | .dstSize | .scrBase | .scrSize => .readWrite

/-- The result registers, whose reads while BUSY are free values (R64). -/
def Reg.isResult : Reg → Bool
  | .lNplanes | .lTotal | .lPlane _ _ | .locPtr | .locW | .locH | .locStride => true
  | _ => false

/-- The word FORMAT reads as (R50, R36). -/
def FormatReg.toWord (r : FormatReg) : Word := (0#23 ++ BitVec.ofBool r.interlaced ++ 0#3 ++ r.fmt : BitVec 32)

/-- What a write to FORMAT stores (R50, R36). -/
def FormatReg.ofWord (v : Word) : FormatReg := ⟨v.extractLsb' 0 5, v.getLsbD 8⟩

/-- The word SRC_DIM or DST_DIM reads as (R51, R36). -/
def Dim.toWord (r : Dim) : Word := (0#1 ++ r.h ++ 0#1 ++ r.w : BitVec 32)

/-- What a write to SRC_DIM or DST_DIM stores (R51, R36). -/
def Dim.ofWord (v : Word) : Dim := ⟨v.extractLsb' 0 15, v.extractLsb' 16 15⟩

/-- The registers of plane `p` of the layout result file. -/
def State.planeRegs (s : State) (p : Fin 3) : PlaneRegs := if p = 0 then s.lp0 else if p = 1 then s.lp1 else s.lp2

/-- The word a plane register reads as (R61). -/
def PlaneRegs.get (r : PlaneRegs) : PlaneReg → Word
  | .w => r.w
  | .h => r.h
  | .stride => r.stride
  | .offset => r.offset
  | .size => r.size
  | .role => (0#30 ++ r.role : BitVec 32)

/-- What a register reads as while BUSY = 0 (R37 to R62). -/
def State.readReg (s : State) : Reg → Word
  | .id => Config.idValue
  | .status => s.status.toWord
  | .cmd => 0#32
  | .irqEn => s.irqEn.toWord
  | .format => s.format.toWord
  | .srcDim => s.srcDim.toWord
  | .dstDim => s.dstDim.toWord
  | .srcBase => s.srcBase
  | .srcSize => s.srcSize
  | .dstBase => s.dstBase
  | .dstSize => s.dstSize
  | .scrBase => s.scrBase
  | .scrSize => s.scrSize
  | .lNplanes => (0#30 ++ s.lNplanes : BitVec 32)
  | .lTotal => s.lTotal
  | .lPlane p r => (s.planeRegs p).get r
  | .locPtr => s.loc.ptr
  | .locW => s.loc.w
  | .locH => s.loc.h
  | .locStride => s.loc.stride

/-- A write to a configuration register (R49 to R58); reserved bits are dropped (R36), and no other register is
written by the host. -/
def State.writeReg (r : Reg) (v : Word) (s : State) : State :=
  match r with
  | .irqEn => { s with irqEn := IrqEn.ofWord v }
  | .format => { s with format := FormatReg.ofWord v }
  | .srcDim => { s with srcDim := Dim.ofWord v }
  | .dstDim => { s with dstDim := Dim.ofWord v }
  | .srcBase => { s with srcBase := v }
  | .srcSize => { s with srcSize := v }
  | .dstBase => { s with dstBase := v }
  | .dstSize => { s with dstSize := v }
  | .scrBase => { s with scrBase := v }
  | .scrSize => { s with scrSize := v }
  | .id | .status | .cmd | .lNplanes | .lTotal | .lPlane _ _ | .locPtr | .locW | .locH | .locStride => s

/-- The offset of a bus address from REG_BASE (R34; log 1). -/
def busOffset (addr : Nat) : Int := (addr : Int) - (Config.regBase : Int)

/-- The offset of an admitted register access: 32 bits wide, at a multiple of 4, inside the window (R34). -/
def admittedOffset (bytes : Nat) (offset : Int) : Option Nat :=
  if bytes = 4 ∧ 0 ≤ offset ∧ offset < Config.regWindow ∧ offset % 4 = 0 then some offset.toNat else none

end Sys2Proof.Machine
end

