-- ==== Sys2Proof/Machine/Control.lean ====
section
/-! DEFINITION. NOP and CLEAR (spec 45_commands.md R275, R276). -/

namespace Sys2Proof.Machine

/-- NOP (R275), at its completion: it reads no configuration and completes successfully. -/
def execNop (s : State) : Host.Outcome State Fault Refusal := .next (s.succeed false)

/-- CLEAR (R276), at its acceptance: STATUS is acknowledged, BUSY and EFFM stay. -/
def execClear (s : State) : Host.Outcome State Fault Refusal := .next { s with status := s.status.cleared }

end Sys2Proof.Machine
end

