-- ==== Sys2Proof/Machine/Geometry.lean ====
section
/-! DEFINITION. plane_geometry_calc and the layout half of format_stride_dispatch: the layout of a frame (spec
41_geometry.md), the plane locator (42_plane_locator.md), and the commands LAYOUT and LOCATE. -/

namespace Sys2Proof.Machine

/-- One row of the layout table R142, before offsets. -/
structure PlaneRow where
  /-- The component the plane carries. -/
  role : Role
  /-- Width in pixels of the plane's grid. -/
  w : Nat
  /-- Logical height in rows. -/
  h : Nat
  /-- Allocation height in rows (R146). -/
  ah : Nat
  /-- Stride in bytes. -/
  stride : Nat
  deriving DecidableEq, Repr

/-- One plane of a layout (R140). -/
structure PlaneGeom where
  /-- `L.role[p]`. -/
  role : Role
  /-- `L.w[p]`. -/
  w : Nat
  /-- `L.h[p]`, the logical height. -/
  h : Nat
  /-- `L.ah[p]`, the allocation height. -/
  ah : Nat
  /-- `L.stride[p]`. -/
  stride : Nat
  /-- `L.offset[p]`. -/
  offset : Nat
  deriving DecidableEq, Repr

/-- `L.size[p] = L.stride[p] · L.ah[p]` (R149). -/
def PlaneGeom.size (g : PlaneGeom) : Nat := g.stride * g.ah

/-- A layout: its planes in memory order (R140, R148). -/
abbrev Layout := List PlaneGeom

/-- `L.total`, the sum of the plane sizes (R149). -/
def Layout.total (l : Layout) : Nat := (l.map PlaneGeom.size).sum

/-- A luma plane over two chroma planes of one shape. -/
def planarRows (fmt : Format) (luma : PlaneRow) (w h stride : Nat) : List PlaneRow :=
  [luma, ⟨fmt.chromaRoles.1, w, h, h, stride⟩, ⟨fmt.chromaRoles.2, w, h, h, stride⟩]

/-- The layout table (R142; R144, R145, R150 to R156). -/
def planeRows (fmt : Format) (w h : Nat) : List PlaneRow :=
  match fmt.layoutClass with
  | .packed4 => [⟨.y, w, h, h, 4 * w⟩]
  | .packed3 => [⟨.y, w, h, h, roundUp 4 (3 * w)⟩]
  | .packed422 => [⟨.y, w, h, h, roundUp 4 (2 * w)⟩]
  | .packed16 => [⟨.y, w, h, h, roundUp 4 (2 * w)⟩]
  | .packed8 => [⟨.y, w, h, h, roundUp 4 w⟩]
  | .planar444 => planarRows fmt ⟨.y, w, h, h, roundUp 4 w⟩ w h (roundUp 4 w)
  | .planar422 => planarRows fmt ⟨.y, w, h, h, roundUp 4 w⟩ (ceilDiv w 2) h (roundUp 8 w / 2)
  | .planar411 => planarRows fmt ⟨.y, w, h, h, roundUp 4 w⟩ (ceilDiv w 4) h (roundUp 16 w / 4)
  | .planar420 =>
    planarRows fmt ⟨.y, w, h, roundUp 2 h, roundUp 4 w⟩ (ceilDiv w 2) (ceilDiv h 2) (roundUp 4 (roundUp 4 w / 2))

/-- Lay planes out one after another from an offset (R149). -/
def placePlanes : Nat → List PlaneRow → Layout
  | _, [] => []
  | offset, r :: rows =>
    ⟨r.role, r.w, r.h, r.ah, r.stride, offset⟩ :: placePlanes (offset + r.stride * r.ah) rows

/-- `layout(fmt, w, h)` (R140, R142, R149). -/
def layout (fmt : Format) (w h : Nat) : Layout := placePlanes 0 (planeRows fmt w h)

/-- `plane_of`: the plane that carries a role, if the format has it (R148, 42_plane_locator.md R183). -/
def Layout.planeOf (l : Layout) (role : Role) : Option PlaneGeom := l.find? fun g => g.role == role

/-- The effective geometry of one plane in one field (42_plane_locator.md R180). -/
structure EffGeom where
  /-- The address of row 0, not reduced modulo 2^32 (R181). -/
  ptr : Nat
  /-- Effective width. -/
  w : Nat
  /-- Effective height. -/
  h : Nat
  /-- Effective stride. -/
  stride : Nat
  deriving DecidableEq, Repr

/-- `locate(L, base, p, field, il)`: progressive content by R181, interlaced by R182, on the plane's own height and
stride (R184). -/
def locate (g : PlaneGeom) (base : Nat) (field : Field) (interlaced : Bool) : EffGeom :=
  if interlaced then
    match field with
    | .f0 => ⟨base + g.offset, g.w, ceilDiv g.h 2, 2 * g.stride⟩
    | .f1 => ⟨base + g.offset + g.stride, g.w, g.h / 2, 2 * g.stride⟩
  else ⟨base + g.offset, g.w, g.h, g.stride⟩

/-- The layout of the frame SEL selects, or the first check of 60_exceptions.md R316 (steps 2 and 3) that fails. -/
def State.frameLayout (s : State) (sel : Sel) : Except ErrorCode Layout :=
  match Format.ofCode s.format.fmt with
  | none => .error .unsupportedFormat
  | some fmt =>
    if (s.dimOf sel).inRange then .ok (layout fmt (s.dimOf sel).w.toNat (s.dimOf sel).h.toNat)
    else .error .invalidDimension

/-- The L_Pp registers of one plane of a layout; all 0 for a plane it lacks (R160). -/
def PlaneRegs.ofPlane : Option PlaneGeom → PlaneRegs
  | none => PlaneRegs.zero
  | some g =>
    ⟨BitVec.ofNat 32 g.w, BitVec.ofNat 32 g.h, BitVec.ofNat 32 g.stride, BitVec.ofNat 32 g.offset,
      BitVec.ofNat 32 g.size, g.role.code⟩

/-- Publish a layout in the layout result file (R160). -/
def State.publishLayout (l : Layout) (s : State) : State :=
  { s with
    lNplanes := BitVec.ofNat 2 l.length, lTotal := BitVec.ofNat 32 l.total,
    lp0 := PlaneRegs.ofPlane l[0]?, lp1 := PlaneRegs.ofPlane l[1]?, lp2 := PlaneRegs.ofPlane l[2]? }

/-- Publish an effective geometry in the locator result file; the pointer wraps modulo 2^32 (42_plane_locator.md R185,
R187). -/
def State.publishLocation (e : EffGeom) (s : State) : State :=
  { s with
    loc := ⟨BitVec.ofNat 32 e.ptr, BitVec.ofNat 32 e.w, BitVec.ofNat 32 e.h, BitVec.ofNat 32 e.stride⟩ }

/-- LAYOUT (41_geometry.md R160), at its completion. -/
def execLayout (sel : Sel) (s : State) : Host.Outcome State Fault Refusal :=
  match s.frameLayout sel with
  | .error code => .next (s.fail code)
  | .ok l => .next ((s.publishLayout l).succeed false)

/-- The effective geometry a LOCATE publishes, or the check of 60_exceptions.md R316 (steps 1 to 4a) that fails first. -/
def State.locateResult (s : State) (sel : Sel) (role : BitVec 2) (field : Field) : Except ErrorCode EffGeom :=
  match Role.ofCode role with
  | none => .error .illegalCommand
  | some r =>
    if fieldAllowed s.format.interlaced field then
      match s.frameLayout sel with
      | .error code => .error code
      | .ok l =>
        match l.planeOf r with
        | none => .error .planeRoleInvalid
        | some g => .ok (locate g (s.baseOf sel).toNat field s.format.interlaced)
    else .error .illegalCommand

/-- LOCATE (42_plane_locator.md R185), at its completion. -/
def execLocate (sel : Sel) (role : BitVec 2) (field : Field) (s : State) : Host.Outcome State Fault Refusal :=
  match s.locateResult sel role field with
  | .error code => .next (s.fail code)
  | .ok e => .next ((s.publishLocation e).succeed false)

end Sys2Proof.Machine
end

