-- ==== Sys2Proof/Machine/Resample.lean ====
section
/-! DEFINITION. The resampling kernels over one channel image: NEAREST, bilinear_scaler and 4tap_scaler (spec
43_resample_kernels.md). Values are integers of unbounded width (00_scope.md R11). -/

namespace Sys2Proof.Machine

/-- `pos(i, n_src, n_dst)`: the source coordinate with FRAC_BITS fraction bits (R202). -/
def srcPos (i nSrc nDst : Nat) : Nat := i * nSrc * 2 ^ Config.fracBits / nDst

/-- `ip(i)`: the integer part of the source coordinate (R202). -/
def srcIndex (i nSrc nDst : Nat) : Nat := srcPos i nSrc nDst / 2 ^ Config.fracBits

/-- `fr(i)`: the fraction of the source coordinate (R202). -/
def srcFrac (i nSrc nDst : Nat) : Nat := srcPos i nSrc nDst % 2 ^ Config.fracBits

/-- `ci(k, n)`: a source index outside the image becomes the edge's (R204). -/
def clampIndex (k : Int) (n : Nat) : Nat := (min (max k 0) ((n : Int) - 1)).toNat

/-- `clamp(v, 0, M)`: saturation to the channel's range (R203). -/
def saturate (v : Int) (m : Nat) : Nat := (min (max v 0) (m : Int)).toNat

/-- The default TAPS (R222): the Catmull-Rom cubic at `ph / 256`, rounded, `t1` taking the remainder. `Int.fdiv` is
the floor division of R11. -/
def defaultTaps (ph : Nat) : Config.TapRow :=
  let p : Int := ph
  let n0 := -p ^ 3 + 512 * p ^ 2 - 65536 * p
  let n2 := -3 * p ^ 3 + 1024 * p ^ 2 + 65536 * p
  let n3 := p ^ 3 - 256 * p ^ 2
  let t0 := Int.fdiv (n0 + 16384) 32768
  let t2 := Int.fdiv (n2 + 16384) 32768
  let t3 := Int.fdiv (n3 + 16384) 32768
  ⟨t0, 1024 - t0 - t2 - t3, t2, t3⟩

/-- TAPS[ph] of a tap table (R221, R222). -/
def tapRow (t : Config.TapTable) (ph : Nat) : Config.TapRow :=
  match t with
  | .catmullRom => defaultTaps ph
  | .rows l => l.getD ph ⟨0, 0, 0, 0⟩

/-- What every tap table must satisfy (R224): row 0 is the unit tap, and every row sums to 2^TAP_SHIFT. -/
def TapsValid (t : Config.TapTable) : Prop :=
  tapRow t 0 = ⟨0, 2 ^ Config.tapShift, 0, 0⟩ ∧
  ∀ ph, ph < 2 ^ Config.phaseBits →
    (tapRow t ph).t0 + (tapRow t ph).t1 + (tapRow t ph).t2 + (tapRow t ph).t3 = 2 ^ Config.tapShift

/-- `ph(i)`: the phase of a fraction (R221). -/
def phaseOf (frac : Nat) : Nat := frac / 2 ^ (Config.fracBits - Config.phaseBits)

/-- One destination sample of an axis by NEAREST: the source sample at `⌊i · n_src / n_dst⌋` (R210). -/
def nearestAxis (src : Nat → Nat) (nSrc nDst i : Nat) : Nat := src (i * nSrc / nDst)

/-- One destination sample of an axis by BILINEAR, rounded half up and saturated (R215). -/
def bilinearAxis (src : Nat → Nat) (nSrc nDst m i : Nat) : Nat :=
  let k := srcIndex i nSrc nDst
  let f := srcFrac i nSrc nDst
  let acc := src k * (2 ^ Config.blShift - f) + src (clampIndex ((k : Int) + 1) nSrc) * f
  saturate ((acc + 2 ^ (Config.blShift - 1)) / 2 ^ Config.blShift : Nat) m

/-- One destination sample of an axis by 4TAP with the tap table `taps`, rounded half up by floor division and
saturated (R220, R225). -/
def fourTapAxis (taps : Config.TapTable) (src : Nat → Nat) (nSrc nDst m i : Nat) : Nat :=
  let k : Int := srcIndex i nSrc nDst
  let t := tapRow taps (phaseOf (srcFrac i nSrc nDst))
  let acc : Int :=
    t.t0 * src (clampIndex (k - 1) nSrc) + t.t1 * src (clampIndex k nSrc) + t.t2 * src (clampIndex (k + 1) nSrc)
      + t.t3 * src (clampIndex (k + 2) nSrc)
  saturate (Int.fdiv (acc + 2 ^ (Config.tapShift - 1)) (2 ^ Config.tapShift)) m

/-- One destination sample of an axis by a method, 4TAP with the tap table `taps` (R201). -/
def axisSample (taps : Config.TapTable) (method : Method) (src : Nat → Nat) (nSrc nDst m i : Nat) : Nat :=
  match method with
  | .nearest => nearestAxis src nSrc nDst i
  | .bilinear => bilinearAxis src nSrc nDst m i
  | .fourTap => fourTapAxis taps src nSrc nDst m i

/-- The kernel `D(x, y)` of a channel image `S(x, y)` (R200): the horizontal pass over each source row, each
intermediate sample rounded and saturated (R205), then the vertical pass over each column (R201, R210, R215, R225). -/
def kernel (taps : Config.TapTable) (method : Method) (img : Nat → Nat → Nat) (sw sh dw dh m x y : Nat) : Nat :=
  axisSample taps method (fun r => axisSample taps method (fun c => img c r) sw dw m x) sh dh m y

end Sys2Proof.Machine
end

