-- ==== Sys2Proof/Machine/Channels.lean ====
section
/-! DEFINITION. The kernel half of format_stride_dispatch and chroma_resampler: how a plane's samples and channels lie
in memory, and scaling one plane-field (spec 44_chroma_dispatch.md R240 to R249). -/

namespace Sys2Proof.Machine

/-- One bit field of a sample: one channel (R241). -/
structure Channel where
  /-- Its lowest bit in the sample. -/
  lo : Nat
  /-- Its width in bits. -/
  bits : Nat
  deriving DecidableEq, Repr

/-- `M_c`: the largest value of a channel (R242). -/
def Channel.max (c : Channel) : Nat := 2 ^ c.bits - 1

/-- The value of a channel in a sample (R241). -/
def Channel.value (c : Channel) (sample : Nat) : Nat := sample / 2 ^ c.lo % 2 ^ c.bits

/-- A sequence of samples of one size along a row, with the channels each sample holds: a byte of a P8xn pixel, a word
of P16, F565 or F555, or the Y, U or V bytes of a Y422 row (R241). -/
structure SampleUnit where
  /-- Bytes from one sample of the row to the next. -/
  pitch : Nat
  /-- The first sample's byte offset in the row. -/
  offset : Nat
  /-- The samples run at half the pixel rate (Y422 chroma, R246). -/
  half : Bool
  /-- The sample is 16 bits (two bytes, R84). -/
  wide : Bool
  /-- The channels, the most significant first. -/
  channels : List Channel
  deriving DecidableEq, Repr

/-- An 8-bit sample is one channel. -/
def byteUnit (pitch offset : Nat) (half : Bool) : SampleUnit := ⟨pitch, offset, half, false, [⟨0, 8⟩]⟩

/-- A 16-bit sample with the given channels. -/
def wordUnit (channels : List Channel) : SampleUnit := ⟨2, 0, false, true, channels⟩

/-- A packed 4:2:2 row from the byte offsets (yo, uo, vo) of R245. -/
def units422 (yo uo vo : Nat) : List SampleUnit := [byteUnit 2 yo false, byteUnit 4 uo true, byteUnit 4 vo true]

/-- The kernel class of a format, as the sample units of each of its planes (R240, R241, R244, R245). -/
def unitsOf : Format → List SampleUnit
  | .rgba | .argb | .bgra | .abgr | .rgbx | .xrgb | .bgrx | .xbgr | .ayuv =>
    [byteUnit 4 0 false, byteUnit 4 1 false, byteUnit 4 2 false, byteUnit 4 3 false]
  | .v308 | .rgb | .bgr => [byteUnit 3 0 false, byteUnit 3 1 false, byteUnit 3 2 false]
  | .gray8 | .y444 | .y42b | .i420 | .yv12 | .y41b => [byteUnit 1 0 false]
  | .gray16 => [wordUnit [⟨0, 16⟩]]
  | .rgb565 => [wordUnit [⟨11, 5⟩, ⟨5, 6⟩, ⟨0, 5⟩]]
  | .rgb555 => [wordUnit [⟨15, 1⟩, ⟨10, 5⟩, ⟨5, 5⟩, ⟨0, 5⟩]]
  | .yuy2 => units422 0 1 3
  | .yvyu => units422 0 3 1
  | .uyvy => units422 1 0 2

/-- `cw`: how many samples a row of effective width `ew` holds (R241, R246, R247). -/
def SampleUnit.width (u : SampleUnit) (ew : Nat) : Nat := if u.half then ceilDiv ew 2 else ew

/-- The address of sample (x, r) of an effective plane (R241; 42_plane_locator.md R186). -/
def SampleUnit.addr (u : SampleUnit) (g : EffGeom) (x r : Nat) : Nat := g.ptr + r * g.stride + u.pitch * x + u.offset

/-- The number of bytes of a sample. -/
def SampleUnit.bytes (u : SampleUnit) : Nat := if u.wide then 2 else 1

/-- The sample at an address (R241, R244: a word is read once); `be` is SAMPLE16_BE. -/
def SampleUnit.read (u : SampleUnit) (be : Bool) (m : Memory) (a : Nat) : Nat :=
  if u.wide then m.read16 be a else (m.read8 a).toNat

/-- The byte writes that store a sample (R249); `be` is SAMPLE16_BE. -/
def SampleUnit.cells (u : SampleUnit) (be : Bool) (a v : Nat) : List Host.Cell :=
  if u.wide then cells16 be a v else cells8 a v

/-- One plane-field to scale: its source and destination effective geometries (45_commands.md R277). -/
structure PlaneField where
  /-- `sg`. -/
  src : EffGeom
  /-- `dg`. -/
  dst : EffGeom
  deriving DecidableEq, Repr

/-- The channel image `S_c` of a plane: the value of channel `c` at source sample (x, r) (R249). -/
def SampleUnit.image (u : SampleUnit) (be : Bool) (c : Channel) (m : Memory) (g : EffGeom) (x r : Nat) : Nat :=
  c.value (u.read be m (u.addr g x r))

/-- `D_c(x, y)` of one channel (R249), on a block with parameters `P`. -/
def SampleUnit.scaled (u : SampleUnit) (P : Config.Params) (c : Channel) (method : Method) (m : Memory) (pf : PlaneField)
    (x y : Nat) : Nat :=
  kernel P.taps method (u.image P.sample16BE c m pf.src) (u.width pf.src.w) pf.src.h (u.width pf.dst.w) pf.dst.h c.max x y

/-- The destination sample at (x, y): every channel in its place (R244, R249). -/
def SampleUnit.compose (u : SampleUnit) (P : Config.Params) (method : Method) (m : Memory) (pf : PlaneField)
    (x y : Nat) : Nat :=
  u.channels.foldl (fun acc c => acc ||| u.scaled P c method m pf x y <<< c.lo) 0

/-- The sample positions (x, r) of a unit in an effective plane, row by row (R248). -/
def SampleUnit.positions (u : SampleUnit) (g : EffGeom) : List (Nat × Nat) :=
  (List.range g.h).flatMap fun r => (List.range (u.width g.w)).map fun x => (x, r)

/-- The byte writes of `scale_plane(m, K, src, dst)` (R249), every source sample read from the memory `m`. A
plane-field without destination rows has none (45_commands.md R283, R284). -/
def PlaneField.cells (P : Config.Params) (method : Method) (units : List SampleUnit) (m : Memory) (pf : PlaneField) :
    List Host.Cell :=
  units.flatMap fun u => (u.positions pf.dst).flatMap fun p =>
    u.cells P.sample16BE (u.addr pf.dst p.1 p.2) (u.compose P method m pf p.1 p.2)

/-- The sample bytes of an effective plane: their addresses (R248). -/
def sampleAddrs (units : List SampleUnit) (g : EffGeom) : List Nat :=
  units.flatMap fun u => (u.positions g).flatMap fun p => (List.range u.bytes).map (u.addr g p.1 p.2 + ·)

end Sys2Proof.Machine
end

