-- ==== Sys2Proof/Machine/Scale.lean ====
section
/-! DEFINITION. SCALE_PLANE and RUN: the work list, the checks in their order, and the effect on memory (spec
45_commands.md R272 to R294; 60_exceptions.md R316; 20_memory.md R91, R92, R99). -/

namespace Sys2Proof.Machine

/-- What a SCALE_PLANE or RUN that passed its checks does: one method for every plane-field (R278). -/
structure Plan where
  /-- `e`, the effective method (44_chroma_dispatch.md R250). -/
  method : Method
  /-- The kernel class (44_chroma_dispatch.md R240). -/
  units : List SampleUnit
  /-- The plane-fields (R277). -/
  work : List PlaneField
  deriving DecidableEq, Repr

/-- The plane-field of a source and a destination plane in one field (R277). -/
def State.planeField (s : State) (field : Field) (gs gd : PlaneGeom) : PlaneField where
  src := locate gs s.srcBase.toNat field s.format.interlaced
  dst := locate gd s.dstBase.toNat field s.format.interlaced

/-- The fields of a frame (R277). -/
def State.fields (s : State) : List Field := if s.format.interlaced then [.f0, .f1] else [.f0]

/-- RUN's work list: every plane of every field, field 0 first, planes in memory order (R277, R290). -/
def State.frameWork (s : State) (lsrc ldst : Layout) : List PlaneField :=
  s.fields.flatMap fun f => List.zipWith (s.planeField f) lsrc ldst

/-- SCALE_PLANE's work list: the plane that carries ROLE, in one field; none when the format lacks the role (R280). -/
def State.roleWork (s : State) (role : Role) (field : Field) (lsrc ldst : Layout) : Option (List PlaneField) :=
  match lsrc.planeOf role, ldst.planeOf role with
  | some gs, some gd => some [s.planeField field gs gd]
  | _, _ => none

/-- A source field of height 0 faces a destination field with rows (R284). -/
def PlaneField.lacksSource (pf : PlaneField) : Bool := pf.src.h == 0 && pf.dst.h != 0

/-- `eff_stride_p` of a destination plane (20_memory.md R91). -/
def State.effStride (s : State) (g : PlaneGeom) : Nat := if s.format.interlaced then 2 * g.stride else g.stride

/-- SCR_REQ, the scratch requirement over a destination layout (20_memory.md R91). -/
def State.scratchNeed (s : State) (ldst : Layout) : Nat :=
  Config.scratchRows * (ldst.map s.effStride).foldl Nat.max 0

/-- `validate(work)`: steps 4b to 8 of 60_exceptions.md R316, the first that fails (R279). -/
def State.validate (s : State) (lsrc ldst : Layout) (work : List PlaneField) : Option ErrorCode :=
  if work.any PlaneField.lacksSource then some .invalidDimension
  else if s.srcSize.toNat < lsrc.total ∨ s.dstSize.toNat ≠ ldst.total then some .geometryMismatch
  else if s.srcRegion.overflows || s.dstRegion.overflows || s.scrRegion.overflows then some .addressOverflow
  else if s.scrSize.toNat < s.scratchNeed ldst then some .scratchTooSmall
  else if s.srcRegion.intersects s.dstRegion || s.srcRegion.intersects s.scrRegion || s.dstRegion.intersects s.scrRegion
    then some .bufferOverlap
  else none

/-- Steps 2 and 3 of 60_exceptions.md R316 for a command that needs both frames: the format and the layouts of the
source and the destination (41_geometry.md R161). -/
def State.bothLayouts (s : State) : Except ErrorCode (Format × Layout × Layout) :=
  match Format.ofCode s.format.fmt with
  | none => .error .unsupportedFormat
  | some fmt =>
    if s.srcDim.inRange && s.dstDim.inRange then
      .ok (fmt, layout fmt s.srcDim.w.toNat s.srcDim.h.toNat, layout fmt s.dstDim.w.toNat s.dstDim.h.toNat)
    else .error .invalidDimension

/-- The plan of a command whose work list is known, or the check of `validate` that fails. -/
def State.planFor (s : State) (method : Method) (fmt : Format) (lsrc ldst : Layout) (work : List PlaneField) :
    Except ErrorCode Plan :=
  match s.validate lsrc ldst work with
  | some code => .error code
  | none => .ok ⟨s.effMethod method, unitsOf fmt, work⟩

/-- What a RUN of a method does, or the first failing check of steps 2 to 8 (R290). -/
def State.runPlan (s : State) (method : Method) : Except ErrorCode Plan :=
  match s.bothLayouts with
  | .error code => .error code
  | .ok (fmt, lsrc, ldst) => s.planFor method fmt lsrc ldst (s.frameWork lsrc ldst)

/-- What a SCALE_PLANE of a method does, or the first failing check of steps 2 to 8 (R280). -/
def State.scalePlan (s : State) (method : Method) (role : Role) (field : Field) : Except ErrorCode Plan :=
  match s.bothLayouts with
  | .error code => .error code
  | .ok (fmt, lsrc, ldst) =>
    match s.roleWork role field lsrc ldst with
    | none => .error .planeRoleInvalid
    | some work => s.planFor method fmt lsrc ldst work

/-- The destination sample bytes of a plan: their addresses (44_chroma_dispatch.md R248). -/
def Plan.destAddrs (p : Plan) : List Nat := p.work.flatMap fun pf => sampleAddrs p.units pf.dst

/-- The byte writes a plan makes to the destination, every sample read from memory as the command found it (R279,
`scale_all`; 20_memory.md R96). -/
def Plan.cells (p : Plan) (P : Config.Params) (m : Memory) : List Host.Cell :=
  p.work.flatMap fun pf => pf.cells P p.method p.units m

/-- `scale_all`: the destination sample bytes take the kernel's values, or free values when the host wrote into a
region meanwhile (20_memory.md R94, R99), then every scratch byte takes a free value (20_memory.md R92). -/
def State.applyPlan (p : Plan) (s : State) : State :=
  let dest := if s.hazard then drawnCells s.draws p.destAddrs else p.cells s.params s.mem
  ((s.writeCells dest).writeCells (drawnCells s.draws s.scrRegion.addrs)).drawn

/-- The completion of a SCALE_PLANE or RUN past its decode check: EFFM is recorded whatever follows (10_state.md R46),
then the plan is applied or the error reported. -/
def State.completeScale (method : Method) (isRun : Bool) (plan : Except ErrorCode Plan) (s : State) : State :=
  match plan with
  | .error code => (s.recordMethod (s.effMethod method)).fail code
  | .ok p => ((s.recordMethod (s.effMethod method)).applyPlan p).succeed isRun

/-- The body shared by R280, R281 and R282: the decode check of R127 conditions 6 and 7 first, EFFM untouched when it
fails (60_exceptions.md R314). -/
def scalePlane (method : Method) (role : BitVec 2) (field : Field) (s : State) : State :=
  match Role.ofCode role with
  | none => s.fail .illegalCommand
  | some r =>
    if fieldAllowed s.format.interlaced field then s.completeScale method false (s.scalePlan method r field)
    else s.fail .illegalCommand

/-- The body shared by R290, R291 and R292. -/
def run (method : Method) (s : State) : State := s.completeScale method true (s.runPlan method)

/-- SCALE_PLANE.NEAREST (R280), at its completion. -/
def execScalePlaneNearest (role : BitVec 2) (field : Field) (s : State) : Host.Outcome State Fault Refusal :=
  .next (scalePlane .nearest role field s)

/-- SCALE_PLANE.BILINEAR (R281), at its completion. -/
def execScalePlaneBilinear (role : BitVec 2) (field : Field) (s : State) : Host.Outcome State Fault Refusal :=
  .next (scalePlane .bilinear role field s)

/-- SCALE_PLANE.4TAP (R282), at its completion. -/
def execScalePlaneFourTap (role : BitVec 2) (field : Field) (s : State) : Host.Outcome State Fault Refusal :=
  .next (scalePlane .fourTap role field s)

/-- RUN.NEAREST (R290), at its completion. -/
def execRunNearest (s : State) : Host.Outcome State Fault Refusal := .next (run .nearest s)

/-- RUN.BILINEAR (R291), at its completion. -/
def execRunBilinear (s : State) : Host.Outcome State Fault Refusal := .next (run .bilinear s)

/-- RUN.4TAP (R292), at its completion. -/
def execRunFourTap (s : State) : Host.Outcome State Fault Refusal := .next (run .fourTap s)

end Sys2Proof.Machine
end

