-- ==== Sys2Proof/Machine/Dispatch.lean ====
section
/-! DEFINITION. The meaning of every command: its completion step, and for CLEAR its effect at acceptance
(spec 45_commands.md R270, R271). -/

namespace Sys2Proof.Machine

def exec (i : Instr) (s : State) : Host.Outcome State Fault Refusal :=
  match i with
  | .nop => Sys2Proof.Machine.execNop s
  | .layout sel => Sys2Proof.Machine.execLayout sel s
  | .locate sel role field => Sys2Proof.Machine.execLocate sel role field s
  | .scalePlaneNearest role field => Sys2Proof.Machine.execScalePlaneNearest role field s
  | .scalePlaneBilinear role field => Sys2Proof.Machine.execScalePlaneBilinear role field s
  | .scalePlaneFourTap role field => Sys2Proof.Machine.execScalePlaneFourTap role field s
  | .runNearest => Sys2Proof.Machine.execRunNearest s
  | .runBilinear => Sys2Proof.Machine.execRunBilinear s
  | .runFourTap => Sys2Proof.Machine.execRunFourTap s
  | .clear => Sys2Proof.Machine.execClear s

end Sys2Proof.Machine
end

