-- ==== Sys2Proof/Machine/Block.lean ====
section
/-! DEFINITION. The block's turn: the completion of the command in flight (spec 45_commands.md R271), and what a
command that is cut short could have written (70_reset_and_hazards.md R350). -/

namespace Sys2Proof.Machine

/-- The word of CLEAR, which is recognised at acceptance and is never in flight (45_commands.md R270, R276). -/
def clearWord : Word := 0x00000005#32

/-- The block's turn: the command in flight completes, whatever word it is (R271); an illegal word completes with
IllegalCommand (30_encoding.md R127; 60_exceptions.md R314); an idle block does nothing (70_reset_and_hazards.md
R374). -/
def blockTurn (s : State) : Host.Outcome State Fault Refusal :=
  match s.curCmd with
  | none => .next s
  | some w =>
    match decode w with
    | .ok i => exec i s
    | .error _ => .next (s.fail .illegalCommand)

/-- The plan a SCALE_PLANE would carry out, none where it would end in an error. -/
def State.scalePlanOf (s : State) (method : Method) (role : BitVec 2) (field : Field) : Option Plan :=
  match Role.ofCode role with
  | none => none
  | some r => if fieldAllowed s.format.interlaced field then (s.scalePlan method r field).toOption else none

/-- The plan a command would carry out at its completion: none for a command that accesses no memory and for one that
would end in an error (45_commands.md R274; 60_exceptions.md R321). -/
def State.planOf (s : State) : Instr → Option Plan
  | .nop | .layout _ | .locate _ _ _ | .clear => none
  | .scalePlaneNearest role field => s.scalePlanOf .nearest role field
  | .scalePlaneBilinear role field => s.scalePlanOf .bilinear role field
  | .scalePlaneFourTap role field => s.scalePlanOf .fourTap role field
  | .runNearest => (s.runPlan .nearest).toOption
  | .runBilinear => (s.runPlan .bilinear).toOption
  | .runFourTap => (s.runPlan .fourTap).toOption

/-- The addresses the command in flight could write: destination sample bytes and scratch bytes (70_reset_and_hazards.md
R350; log 11). -/
def State.inFlightAddrs (s : State) : List Nat :=
  match s.curCmd with
  | none => []
  | some w =>
    match decode w with
    | .error _ => []
    | .ok i =>
      match s.planOf i with
      | none => []
      | some p => p.destAddrs ++ s.scrRegion.addrs

end Sys2Proof.Machine
end

