-- ==== Sys2Proof/Machine/HostPort.lean ====
section
/-! DEFINITION. What each action of the host does: register accesses (spec 10_state.md R34 to R64), memory accesses and
the hazards of a buffer in use (20_memory.md R97 to R99), and reset (70_reset_and_hazards.md R350). -/

namespace Sys2Proof.Machine

/-- A write of `w` to CMD (10_state.md R48, R63; 45_commands.md R270): ignored while BUSY, else accepted; CLEAR takes
effect at once. -/
def cmdWrite (w : Word) (s : State) : Host.Outcome State Fault Refusal :=
  if s.status.busy then .next s.ignoreWrite
  else if w = clearWord then exec .clear s
  else .next (s.acceptWord w)

/-- A write of `v` to a register (10_state.md R37, R49, R63): a read-only register ignores it, and a configuration
register other than IRQ_EN drops it while BUSY. -/
def registerWrite (r : Reg) (v : Word) (s : State) : Host.Outcome State Fault Refusal :=
  match r.access with
  | .readOnly => .next s
  | .writeOnly => cmdWrite v s
  | .readWrite => if s.status.busy && r != .irqEn then .next s.ignoreWrite else .next (s.writeReg r v)

/-- Whether a RUN is in flight: the word in CUR_CMD has OP = 4 (10_state.md R45). -/
def State.runInFlight (s : State) : Bool :=
  match s.curCmd with
  | none => false
  | some w => w.extractLsb' 0 4 == opRun

/-- What STATUS.SEQ reads as while a RUN is in flight (10_state.md R45, R64): 1, or 1 or 2 on interlaced content
(log 9). -/
def State.seqOfRun (s : State) : BitVec 2 :=
  if s.format.interlaced && Config.drawBit s.draws then seqField1 else seqField0

/-- The host's read returns `v`. -/
def State.answer (v : Word) (s : State) : State := { s with hostData := v }

/-- A read of a register (10_state.md R37, R64). While BUSY, a result register is a free value, and so is STATUS.SEQ of
a RUN; while another command is in flight SEQ reads as stored (R45; log 9). A STATUS that shows an error code no command
reports is a fault (60_exceptions.md R312; 93_implementation_defined.md U15, U16; log 14). -/
def registerRead (r : Reg) (s : State) : Host.Outcome State Fault Refusal :=
  match r with
  | .status =>
    if neverRaised s.status.errcode then .fault (.impossibleErrorCode s.status.errcode)
    else if s.status.busy && s.runInFlight then .next ((s.answer (s.status.toWordWith s.seqOfRun)).drawn)
    else .next (s.answer s.status.toWord)
  | _ =>
    if r.isResult && s.status.busy then .next ((s.answer (Config.drawWord s.draws)).drawn)
    else .next (s.answer (s.readReg r))

/-- The value of a register access by its offset, or the refusal of one that is not admitted (10_state.md R34, R35): an
unlisted offset ignores writes. -/
def windowWrite (bytes : Nat) (offset : Int) (v : Word) (s : State) : Host.Outcome State Fault Refusal :=
  match admittedOffset bytes offset with
  | none => .refused (.registerAccess bytes offset)
  | some o =>
    match Reg.ofOffset o with
    | none => .next s
    | some r => registerWrite r v s

/-- A read of the register window (10_state.md R34, R35): an unlisted offset reads 0. -/
def windowRead (bytes : Nat) (offset : Int) (s : State) : Host.Outcome State Fault Refusal :=
  match admittedOffset bytes offset with
  | none => .refused (.registerAccess bytes offset)
  | some o =>
    match Reg.ofOffset o with
    | none => .next (s.answer 0#32)
    | some r => registerRead r s

/-- A host write of one byte of memory. Into a region while BUSY, the byte becomes free and the command in flight is
marked (20_memory.md R99). -/
def memoryWrite (addr : Nat) (v : Byte) (s : State) : State :=
  if s.status.busy && s.inBuffers addr then
    { s.writeCells [(addr, Config.drawByte s.draws addr)] with hazard := true }.drawn
  else s.writeCells [(addr, v)]

/-- A host read of one byte of memory, zero-extended. From the destination or scratch region while BUSY, it is free
(20_memory.md R99). -/
def memoryRead (addr : Nat) (s : State) : State :=
  if s.status.busy && (s.dstRegion.covers addr || s.scrRegion.covers addr) then
    (s.answer ((Config.drawByte s.draws addr).setWidth 32)).drawn
  else s.answer ((s.mem.read8 addr).setWidth 32)

/-- The reset input (70_reset_and_hazards.md R350): every register and CUR_CMD take their reset values; memory stays,
but every byte that a command cut short could write becomes free. The instance's parameters (R67) and the host's own
fields stay (log 12). -/
def resetBlock (s : State) : State :=
  { State.reset with
    mem := s.mem.writeAll (drawnCells s.draws s.inFlightAddrs), params := s.params, draws := s.draws + 1,
    hostData := s.hostData, schedule := s.schedule }

/-- One action of the host (R30, R34). -/
def hostStep (e : HostEvent) (s : State) : Host.Outcome State Fault Refusal :=
  match e with
  | .regWrite bytes offset v => windowWrite bytes offset v s
  | .regRead bytes offset => windowRead bytes offset s
  | .memWrite addr v => .next (memoryWrite addr.toNat v s)
  | .memRead addr => .next (memoryRead addr.toNat s)
  | .reset => .next (resetBlock s)
  | .blockTurn => blockTurn s

/-- One step of host and block (log 2, log 3): the next action the schedule lists, or the block's turn when it lists
none. -/
def nextTurn (s : State) : Host.Outcome State Fault Refusal :=
  match s.schedule with
  | [] => blockTurn s
  | e :: rest => hostStep e { s with schedule := rest }

/-- The event by which the host hands a word to CMD (30_encoding.md R132, ISSUE). -/
def issue (w : Word) : HostEvent := .regWrite 4 0x008 w

/-- `s` with the word `w` about to run: CLEAR as the host's CMD write, which accepts and performs it (45_commands.md
R270); any other word as accepted and in flight, at the block's turn (R271); log 4. -/
def State.withCommand (s : State) (w : Word) : State :=
  if w = clearWord then
    { s with status := { s.status with busy := false }, curCmd := none, schedule := issue w :: s.schedule }
  else
    { s.acceptWord w with schedule := if s.schedule.isEmpty then [] else .blockTurn :: s.schedule }

end Sys2Proof.Machine
end

