-- ==== Sys2Proof/Machine/Step.lean ====
section
/-! DEFINITION. One step of the machine, and a state whose next step runs a given command word. -/

namespace Sys2Proof.Machine

/-- One step: the host's next scheduled action, or the block's turn (spec 45_commands.md R270, R271; log 2). -/
def step (s : State) : Host.Outcome State Fault Refusal := nextTurn s

/-- `s` with the command word `w`, its bits from `nbits` up 0, where the next step runs it (log 4). -/
def State.withFetchWord (s : State) (nbits w : Nat) : State := s.withCommand (tableWord nbits w)

end Sys2Proof.Machine
end

