-- ==== Sys2Proof/Safety.lean ====
section
/-! DEFINITION. What a safe state is: the relations between STATUS, CUR_CMD and memory that the spec promises of every
state a run reaches (spec 10_state.md R40 to R47, R66; 60_exceptions.md R310, R312). -/

namespace Sys2Proof.Machine

/-- The flags of STATUS agree with one another. -/
structure Status.Coherent (st : Status) : Prop where
  /-- "DONE and ERR are never both 1" (R41). -/
  exclusive : ¬(st.done = true ∧ st.err = true)
  /-- A command in flight has cleared DONE and ERR (R41, R42, R270). -/
  busyQuiet : st.busy = true → st.done = false ∧ st.err = false
  /-- "While ERR = 0 it reads 0" (R44). -/
  codeQuiet : st.err = false → st.errcode = 0#4
  /-- While ERR = 1, ERRCODE is one of 1 and 4 to 10 (R310, R312). -/
  codeRaised : st.err = true → st.errcode ≠ 0#4 ∧ neverRaised st.errcode = false
  /-- EFFM holds a method code (R46, 30_encoding.md R122). -/
  method : st.effm ≠ 3#2
  /-- Outside a command SEQ is Idle or Done, and Done only after a successful RUN (R45, 45_commands.md R293). -/
  seqIdle : st.busy = false → st.seq = Machine.seqIdle ∨ st.seq = seqDone ∧ st.done = true ∧ st.lastOp = opRun

/-- The invariant of the block. -/
structure State.Inv (s : State) : Prop where
  /-- The flags of STATUS agree. -/
  status : s.status.Coherent
  /-- BUSY is 1 exactly while a word is in flight (R40, R66). -/
  busy : s.status.busy = s.curCmd.isSome
  /-- CLEAR is never in flight (R270, R276), and LAST_OP is the OP of the word in flight (R47). -/
  inFlight : ∀ w, s.curCmd = some w → w ≠ clearWord ∧ s.status.lastOp = w.extractLsb' 0 4
  /-- While a RUN is in flight the stored SEQ is PerField(0) (R45, R293). -/
  runSeq : s.runInFlight = true → s.status.seq = seqField0
  /-- MODEL: a hazard is marked only while a command is in flight (log 10). -/
  hazard : s.hazard = true → s.status.busy = true
  /-- Memory is in its canonical form (log 6). -/
  memory : s.mem.wf
  /-- The instance's tap table is one a block may have (43_resample_kernels.md R224; 93_implementation_defined.md U21). -/
  taps : TapsValid s.params.taps

end Sys2Proof.Machine
end

