-- ==== Sys2Proof/Certificates/Slice0/Obligations.lean ====
section
/-! DEFINITION. The statements for the provers. Each docstring names the rule of the spec, or the log entry, a statement
rests on. The vocabulary they share stands first, in Sys2Proof.Claims. -/

namespace Sys2Proof.Claims

open Sys2Proof Sys2Proof.Machine

/-- An illegal command word, condition by condition (30_encoding.md R127), on content that is interlaced or not. -/
def Illegal (w : Word) (interlaced : Bool) : Prop :=
  let op := (w.extractLsb' 0 4).toNat
  let method := w.extractLsb' 4 2
  let sel := w.extractLsb' 8 1
  let role := w.extractLsb' 10 2
  let field := w.extractLsb' 12 1
  6 ≤ op ∨
  (w.extractLsb' 6 2 ≠ 0#2 ∨ w.extractLsb' 9 1 ≠ 0#1 ∨ w.extractLsb' 13 19 ≠ 0#19) ∨
  ((op ≠ 3 ∧ op ≠ 4 ∧ method ≠ 0#2) ∨ (op ≠ 1 ∧ op ≠ 2 ∧ sel ≠ 0#1) ∨
    (op ≠ 2 ∧ op ≠ 3 ∧ (role ≠ 0#2 ∨ field ≠ 0#1))) ∨
  (op = 5 ∧ w ≠ 0x00000005#32) ∨
  ((op = 3 ∨ op = 4) ∧ method = 3#2) ∨
  ((op = 2 ∨ op = 3) ∧ role = 3#2) ∨
  ((op = 2 ∨ op = 3) ∧ field = 1#1 ∧ interlaced = false)

/-- The side conditions of a row of R130 on a word it covers: r ≠ 3 where the row has a ROLE field, and FIELD = 1 only
on interlaced content where it has a FIELD field. -/
def SideConditions (row : OpcodeRow) (w : Word) (interlaced : Bool) : Prop :=
  (row.mask.extractLsb' 10 2 = 0#2 → w.extractLsb' 10 2 ≠ 3#2) ∧
  (row.mask.extractLsb' 12 1 = 0#1 → w.extractLsb' 12 1 = 1#1 → interlaced = true)

/-- The three RUN commands with their METHOD (R290 to R292). -/
def runForms : List (Instr × Method) := [(.runNearest, .nearest), (.runBilinear, .bilinear), (.runFourTap, .fourTap)]

/-- The three SCALE_PLANE commands of a role and a field with their METHOD (R280 to R282). -/
def planeForms (role : BitVec 2) (field : Field) : List (Instr × Method) :=
  [(.scalePlaneNearest role field, .nearest), (.scalePlaneBilinear role field, .bilinear),
   (.scalePlaneFourTap role field, .fourTap)]

/-- LAYOUT, by any operand. -/
def isLayout : Instr → Bool
  | .layout _ => true
  | _ => false

/-- LOCATE, by any operand. -/
def isLocate : Instr → Bool
  | .locate _ _ _ => true
  | _ => false

/-- SCALE_PLANE or RUN, by any method and operand. -/
def isScale : Instr → Bool
  | .scalePlaneNearest _ _ | .scalePlaneBilinear _ _ | .scalePlaneFourTap _ _ | .runNearest | .runBilinear
  | .runFourTap => true
  | _ => false

/-- The command state after a completion: STATUS as given, nothing in flight (R320; after a success, log 5). -/
def settled (st : Status) (s : State) : State := { s with status := st, curCmd := none, hazard := false }

/-- STATUS after a successful completion (R271). -/
def doneStatus (seq : BitVec 2) (st : Status) : Status := { st with busy := false, done := true, seq := seq }

/-- STATUS after an error completion with a code (R320). -/
def errStatus (code : BitVec 4) (st : Status) : Status :=
  { st with busy := false, err := true, done := false, errcode := code, seq := 0#2 }

/-- STATUS with EFFM recorded (R46). -/
def withMethod (m : Method) (st : Status) : Status := { st with effm := m.code }

/-- Steps 2 and 3 of R316 pass for the source and the destination, and these are their layouts (R161). -/
structure Frames (s : State) (fmt : Format) (lsrc ldst : Layout) : Prop where
  format : Format.ofCode s.format.fmt = some fmt
  srcDim : s.srcDim.w ≠ 0#15 ∧ s.srcDim.h ≠ 0#15
  dstDim : s.dstDim.w ≠ 0#15 ∧ s.dstDim.h ≠ 0#15
  lsrc : lsrc = layout fmt s.srcDim.w.toNat s.srcDim.h.toNat
  ldst : ldst = layout fmt s.dstDim.w.toNat s.dstDim.h.toNat

/-- Step 4b of R316 passes for a work list: no source field of height 0 faces a destination field with rows (R284). -/
def SourceRows (work : List PlaneField) : Prop := ∀ pf ∈ work, pf.dst.h ≠ 0 → pf.src.h ≠ 0

/-- Step 5 of R316: SRC_SIZE ≥ T_src and DST_SIZE = T_dst (R313). -/
def SizesFit (s : State) (lsrc ldst : Layout) : Prop := lsrc.total ≤ s.srcSize.toNat ∧ s.dstSize.toNat = ldst.total

/-- Step 6 of R316: base + size ≤ 2^32 for the three regions (R318). -/
def RegionsEnd (s : State) : Prop :=
  s.srcBase.toNat + s.srcSize.toNat ≤ 2 ^ 32 ∧ s.dstBase.toNat + s.dstSize.toNat ≤ 2 ^ 32 ∧
    s.scrBase.toNat + s.scrSize.toNat ≤ 2 ^ 32

/-- Step 7 of R316: SCR_SIZE is at least four effective strides of every destination plane (20_memory.md R91). -/
def ScratchFits (s : State) (ldst : Layout) : Prop :=
  ∀ g ∈ ldst, 4 * (if s.format.interlaced then 2 * g.stride else g.stride) ≤ s.scrSize.toNat

/-- Two byte ranges do not intersect (R319). -/
def Apart (a x b y : Nat) : Prop := b + y ≤ a ∨ a + x ≤ b

/-- Step 8 of R316: the three regions are pairwise disjoint (R319). -/
def RegionsApart (s : State) : Prop :=
  Apart s.srcBase.toNat s.srcSize.toNat s.dstBase.toNat s.dstSize.toNat ∧
    Apart s.srcBase.toNat s.srcSize.toNat s.scrBase.toNat s.scrSize.toNat ∧
    Apart s.dstBase.toNat s.dstSize.toNat s.scrBase.toNat s.scrSize.toNat

/-- Steps 5 to 8 of R316 pass. -/
structure Buffers (s : State) (lsrc ldst : Layout) : Prop where
  sizes : SizesFit s lsrc ldst
  ends : RegionsEnd s
  scratch : ScratchFits s ldst
  apart : RegionsApart s

/-- The addresses of the destination sample bytes of a work list (R248), by the machine's own expression. -/
def destBytes (fmt : Format) (work : List PlaneField) : List Nat :=
  work.flatMap fun pf => sampleAddrs (unitsOf fmt) pf.dst

/-- Run commands one after another on a state, stopping at the first fault or refusal. -/
def execAll : List Instr → State → Host.Outcome State Fault Refusal
  | [], s => .next s
  | i :: is, s =>
    match exec i s with
    | .next t => execAll is t
    | .fault f => .fault f
    | .refused r => .refused r

/-- The SCALE_PLANE of a method, a role and a field. -/
def planeCommand : Method → Role → Field → Instr
  | .nearest, r, f => .scalePlaneNearest r.code f
  | .bilinear, r, f => .scalePlaneBilinear r.code f
  | .fourTap, r, f => .scalePlaneFourTap r.code f

/-- The RUN of a method. -/
def runCommand : Method → Instr
  | .nearest => .runNearest
  | .bilinear => .runBilinear
  | .fourTap => .runFourTap

/-- Bytes per pixel of a format's planes (41_geometry.md R141). -/
def bytesPerPixel (fmt : Format) : Nat :=
  match fmt.layoutClass with
  | .packed4 => 4
  | .packed3 => 3
  | .packed422 | .packed16 => 2
  | .packed8 | .planar444 | .planar422 | .planar411 | .planar420 => 1

/-- A plane's six L_ registers show a plane of a layout exactly, or are all 0 where the layout has no such plane
(R61, R160). -/
def PlaneShown (r : PlaneRegs) : Option PlaneGeom → Prop
  | none => r = ⟨0#32, 0#32, 0#32, 0#32, 0#32, 0#2⟩
  | some g => r.w.toNat = g.w ∧ r.h.toNat = g.h ∧ r.stride.toNat = g.stride ∧ r.offset.toNat = g.offset ∧
      r.size.toNat = g.stride * g.ah ∧ r.role = g.role.code

/-- The configuration registers a host write changes only while BUSY = 0, with the bits each has (R50 to R58). -/
def lockedOffsets : List (Nat × Word) :=
  [(0x010, 0x0000011F#32), (0x014, 0x7FFF7FFF#32), (0x018, 0x7FFF7FFF#32), (0x01C, 0xFFFFFFFF#32),
   (0x020, 0xFFFFFFFF#32), (0x024, 0xFFFFFFFF#32), (0x028, 0xFFFFFFFF#32), (0x02C, 0xFFFFFFFF#32),
   (0x030, 0xFFFFFFFF#32)]

/-- The writable configuration registers with the bits each has (R49 to R58). -/
def writableOffsets : List (Nat × Word) := (0x00C, 0x00000003#32) :: lockedOffsets

/-- The offsets the register map lists as read-only (R37). -/
def readOnlyOffsets : List Nat :=
  [0x000, 0x004, 0x040, 0x044, 0x060, 0x064, 0x068, 0x06C, 0x070, 0x074, 0x080, 0x084, 0x088, 0x08C, 0x090, 0x094,
   0x0A0, 0x0A4, 0x0A8, 0x0AC, 0x0B0, 0x0B4, 0x0C0, 0x0C4, 0x0C8, 0x0CC]

/-- The offsets of the result registers (R59 to R62). -/
def resultOffsets : List Nat := readOnlyOffsets.drop 2

/-- The offsets the register map lists (R37). -/
def listedOffsets : List Nat := readOnlyOffsets ++ 0x008 :: writableOffsets.map Prod.fst

/-- The six L_ registers of a plane, from the offset `o` of the first (R37, R61). -/
def planeWords (o : Nat) (r : PlaneRegs) : List (Nat × Word) :=
  [(o, r.w), (o + 0x04, r.h), (o + 0x08, r.stride), (o + 0x0C, r.offset), (o + 0x10, r.size),
   (o + 0x14, (0#30 ++ r.role : BitVec 32))]

/-- The register map R37, offset by offset: the word each listed register holds, in its layout of R38 to R62. -/
def registerWords (s : State) : List (Nat × Word) :=
  [(0x000, 0x56534331#32), (0x004, s.status.toWord), (0x008, 0#32),
   (0x00C, (0#30 ++ BitVec.ofBool s.irqEn.errIe ++ BitVec.ofBool s.irqEn.doneIe : BitVec 32)),
   (0x010, (0#23 ++ BitVec.ofBool s.format.interlaced ++ 0#3 ++ s.format.fmt : BitVec 32)),
   (0x014, (0#1 ++ s.srcDim.h ++ 0#1 ++ s.srcDim.w : BitVec 32)),
   (0x018, (0#1 ++ s.dstDim.h ++ 0#1 ++ s.dstDim.w : BitVec 32)),
   (0x01C, s.srcBase), (0x020, s.srcSize), (0x024, s.dstBase), (0x028, s.dstSize), (0x02C, s.scrBase),
   (0x030, s.scrSize), (0x040, (0#30 ++ s.lNplanes : BitVec 32)), (0x044, s.lTotal)] ++
  planeWords 0x060 s.lp0 ++ planeWords 0x080 s.lp1 ++ planeWords 0x0A0 s.lp2 ++
  [(0x0C0, s.loc.ptr), (0x0C4, s.loc.w), (0x0C8, s.loc.h), (0x0CC, s.loc.stride)]

/-- One channel of a kernel class, a row of the table of R241: the samples of a row lie `pitch` bytes apart from the byte
`offset` on, at half the pixel rate where `half`; a sample is a byte, or a 16-bit word where `wide`, and the channel is
its `bits` bits from bit `lo` on. -/
structure ClassChannel where
  /-- Bytes from one sample to the next. -/
  pitch : Nat
  /-- The first sample's byte in the row. -/
  offset : Nat
  /-- Half the pixel rate (R246). -/
  half : Bool
  /-- A 16-bit sample (R84). -/
  wide : Bool
  /-- The channel's lowest bit. -/
  lo : Nat
  /-- The channel's width in bits. -/
  bits : Nat
  deriving DecidableEq, Repr

/-- The channels of each FMT code's planes (R240, R241, R245). -/
def classChannels (code : Nat) : List ClassChannel :=
  let byte := fun (pitch offset : Nat) => (⟨pitch, offset, false, false, 0, 8⟩ : ClassChannel)
  let chroma := fun (offset : Nat) => (⟨4, offset, true, false, 0, 8⟩ : ClassChannel)
  let bitField := fun (lo bits : Nat) => (⟨2, 0, false, true, lo, bits⟩ : ClassChannel)
  if code ≤ 8 then [byte 4 0, byte 4 1, byte 4 2, byte 4 3]
  else if 10 ≤ code ∧ code ≤ 12 then [byte 3 0, byte 3 1, byte 3 2]
  else if code = 14 then [byte 2 0, chroma 1, chroma 3]
  else if code = 15 then [byte 2 0, chroma 3, chroma 1]
  else if code = 16 then [byte 2 1, chroma 0, chroma 2]
  else if code = 20 then [bitField 11 5, bitField 5 6, bitField 0 5]
  else if code = 21 then [bitField 15 1, bitField 10 5, bitField 5 5, bitField 0 5]
  else if code = 22 then [bitField 0 16]
  else [byte 1 0]

/-- `cw`: the samples of a channel in a row of effective width `ew` (R241). -/
def ClassChannel.width (c : ClassChannel) (ew : Nat) : Nat := if c.half then (ew + 1) / 2 else ew

/-- The value of a channel at sample (x, r) of an effective plane (R241, R84). -/
def ClassChannel.value (c : ClassChannel) (be : Bool) (m : Memory) (g : EffGeom) (x r : Nat) : Nat :=
  let a := g.ptr + r * g.stride + c.pitch * x + c.offset
  let first := (m.read8 a).toNat
  let second := (m.read8 (a + 1)).toNat
  let sample := if c.wide then (if be then 256 * first + second else first + 256 * second) else first
  sample / 2 ^ c.lo % 2 ^ c.bits

/-- The effective geometry of a plane in a field (R181, R182). -/
def fieldPlane (g : PlaneGeom) (base : Nat) (field : Field) (interlaced : Bool) : EffGeom :=
  if interlaced then
    ⟨base + g.offset + (if field = .f1 then g.stride else 0), g.w, if field = .f0 then (g.h + 1) / 2 else g.h / 2,
      2 * g.stride⟩
  else ⟨base + g.offset, g.w, g.h, g.stride⟩

/-- After a command with effective method `m`, run from `s`, the memory `mem` holds at every sample of every channel of
the destination geometry `dg` the kernel of the source channel image at `sg` (R242, R249). -/
def Scaled (s : State) (m : Method) (mem : Memory) (sg dg : EffGeom) : Prop :=
  ∀ c ∈ classChannels s.format.fmt.toNat, ∀ x r : Nat, x < c.width dg.w → r < dg.h →
    c.value s.params.sample16BE mem dg x r =
      kernel s.params.taps m (c.value s.params.sample16BE s.mem sg) (c.width sg.w) sg.h (c.width dg.w) dg.h
        (2 ^ c.bits - 1) x r

/-- The step that performs one host event, the rest of the schedule kept. -/
def after (e : HostEvent) (s : State) : Host.Outcome State Fault Refusal := step { s with schedule := e :: s.schedule }

end Sys2Proof.Claims

open Sys2Proof Sys2Proof.Machine Sys2Proof.Claims

/-! ### Encoding -/

/-- R110 to R113, R127, R130: a word decodes to a command exactly when the command is well-formed and the word is its
encoding. -/
def Obligations.DecodeInvertsEncode : Prop :=
  ∀ (w : Word) (i : Instr), decode w = .ok i ↔ i.wf = true ∧ encode i = w

/-- R130: a word is the command of a row exactly when `(w & mask) = match` and the row's side conditions hold; no two
rows match the same word; a word no row matches is illegal. -/
def Obligations.DecodeFollowsOpcodeTable : Prop :=
  (∀ (w : Word) (il : Bool) (i : Instr), decode w = .ok i → i.legal il = true →
    i.row ∈ opcodeTable ∧ w &&& i.row.mask = i.row.pattern ∧ SideConditions i.row w il) ∧
  (∀ (w : Word) (il : Bool) (row : OpcodeRow), row ∈ opcodeTable → w &&& row.mask = row.pattern →
    SideConditions row w il → ∃ i, decode w = .ok i ∧ i.legal il = true ∧ i.row = row) ∧
  (∀ (w : Word) (r q : OpcodeRow), r ∈ opcodeTable → q ∈ opcodeTable → w &&& r.mask = r.pattern →
    w &&& q.mask = q.pattern → r = q)

/-- 95_test_vectors.md V70: the spelled-out words decode to the commands they are listed for. -/
def Obligations.ListedWordsDecode : Prop :=
  decode 0x00000000#32 = .ok .nop ∧ decode 0x00000101#32 = .ok (.layout .dst) ∧
  decode 0x00001902#32 = .ok (.locate .dst 2#2 .f1) ∧ decode 0x00000403#32 = .ok (.scalePlaneNearest 1#2 .f0) ∧
  decode 0x00001813#32 = .ok (.scalePlaneBilinear 2#2 .f1) ∧ decode 0x00000023#32 = .ok (.scalePlaneFourTap 0#2 .f0) ∧
  decode 0x00000004#32 = .ok .runNearest ∧ decode 0x00000014#32 = .ok .runBilinear ∧
  decode 0x00000024#32 = .ok .runFourTap ∧ decode 0x00000005#32 = .ok .clear

/-- R127: a word is illegal exactly under one of the seven conditions. -/
def Obligations.IllegalWordsAreTheSevenConditions : Prop :=
  ∀ (w : Word) (il : Bool), Illegal w il ↔ ¬∃ i, decode w = .ok i ∧ i.legal il = true

/-- R314: an illegal word in flight ends with IllegalCommand, whatever the configuration; no result register, no byte of
memory and not EFFM changes. -/
def Obligations.IllegalWordEndsWithIllegalCommand : Prop :=
  ∀ (s : State) (w : Word), s.curCmd = some w → Illegal w s.format.interlaced →
    blockTurn s = .next (settled (errStatus 5#4 s.status) s)

/-! ### The host's port and reset -/

/-- R270: a CMD write while BUSY = 0 is accepted, CLEAR taking effect at once; while BUSY = 1 it only sets WIGN. The
field hazard is the model's, log 10. -/
def Obligations.CmdWriteIsAccepted : Prop :=
  ∀ (s : State) (w : Word),
    (s.status.busy = false → w ≠ 0x00000005#32 →
      after (.regWrite 4 0x008 w) s = .next { s with
        curCmd := some w, hazard := false,
        status := { s.status with
          lastOp := w.extractLsb' 0 4, busy := true, done := false, err := false, errcode := 0#4,
          seq := if w.extractLsb' 0 4 = 4#4 then 1#2 else s.status.seq } }) ∧
    (s.status.busy = false → w = 0x00000005#32 →
      after (.regWrite 4 0x008 w) s = .next { s with
        status := { s.status with
          lastOp := 5#4, done := false, err := false, errcode := 0#4, wign := false, seq := 0#2 } }) ∧
    (s.status.busy = true →
      after (.regWrite 4 0x008 w) s = .next { s with status := { s.status with wign := true } })

/-- R276: CLEAR acknowledges STATUS, keeps BUSY and EFFM, changes nothing else, and drops the interrupt. -/
def Obligations.ClearAcknowledges : Prop :=
  ∀ s : State, ∃ t, exec .clear s = .next t ∧ t.irq = false ∧ t = { s with
    status := { s.status with done := false, err := false, errcode := 0#4, wign := false, seq := 0#2, lastOp := 5#4 } }

/-- R63, R49: while BUSY = 1 a write to a configuration register other than IRQ_EN, or to CMD, only sets WIGN; a write to
IRQ_EN takes effect and does not set it. -/
def Obligations.WritesWhileBusyAreDropped : Prop :=
  ∀ (s : State) (v : Word), s.status.busy = true →
    (∀ o ∈ 0x008 :: lockedOffsets.map Prod.fst,
      after (.regWrite 4 (o : Nat) v) s = .next { s with status := { s.status with wign := true } }) ∧
    after (.regWrite 4 0x00C v) s = .next { s with irqEn := ⟨v.getLsbD 0, v.getLsbD 1⟩ }

/-- R36, R37, R49 to R58: while BUSY = 0 a configuration write stores the register's own bits in its own field and changes
nothing else; the register reads back with the reserved bits 0, and every other register as before. -/
def Obligations.ConfigurationWritesReadBack : Prop :=
  ∀ (s : State) (v : Word), s.status.busy = false →
    (after (.regWrite 4 0x00C v) s = .next { s with irqEn := ⟨v.getLsbD 0, v.getLsbD 1⟩ } ∧
      after (.regWrite 4 0x010 v) s = .next { s with format := ⟨v.extractLsb' 0 5, v.getLsbD 8⟩ } ∧
      after (.regWrite 4 0x014 v) s = .next { s with srcDim := ⟨v.extractLsb' 0 15, v.extractLsb' 16 15⟩ } ∧
      after (.regWrite 4 0x018 v) s = .next { s with dstDim := ⟨v.extractLsb' 0 15, v.extractLsb' 16 15⟩ } ∧
      after (.regWrite 4 0x01C v) s = .next { s with srcBase := v } ∧
      after (.regWrite 4 0x020 v) s = .next { s with srcSize := v } ∧
      after (.regWrite 4 0x024 v) s = .next { s with dstBase := v } ∧
      after (.regWrite 4 0x028 v) s = .next { s with dstSize := v } ∧
      after (.regWrite 4 0x02C v) s = .next { s with scrBase := v } ∧
      after (.regWrite 4 0x030 v) s = .next { s with scrSize := v }) ∧
    ∀ (o : Nat) (mask : Word), (o, mask) ∈ writableOffsets →
      ∃ t r, after (.regWrite 4 (o : Nat) v) s = .next t ∧ Reg.ofOffset o = some r ∧ t.readReg r = v &&& mask ∧
        (∀ q, q ≠ r → t.readReg q = s.readReg q) ∧ t.mem = s.mem ∧ t.curCmd = s.curCmd ∧ t.status = s.status

/-- R35, R37: a write to a read-only register or to an offset the map does not list has no effect, BUSY or not, and a
read of an unlisted offset returns 0. -/
def Obligations.UnlistedAndReadOnlyWritesHaveNoEffect : Prop :=
  ∀ (s : State) (v : Word) (o : Nat), o < 256 → o % 4 = 0 →
    (o ∈ readOnlyOffsets ∨ o ∉ listedOffsets → after (.regWrite 4 (o : Nat) v) s = .next s) ∧
    (o ∉ listedOffsets → after (.regRead 4 (o : Nat)) s = .next { s with hostData := 0#32 })

/-- R34: an access that is not 32 bits wide at a multiple of 4 below 0x100 is refused; no other access is. -/
def Obligations.OnlyAlignedWordAccessesAreAdmitted : Prop :=
  ∀ (s : State) (bytes : Nat) (offset : Int) (v : Word),
    let admitted := bytes = 4 ∧ 0 ≤ offset ∧ offset < 256 ∧ offset % 4 = 0
    (¬admitted → after (.regWrite bytes offset v) s = .refused (.registerAccess bytes offset) ∧
      after (.regRead bytes offset) s = .refused (.registerAccess bytes offset)) ∧
    (admitted → ∀ r, after (.regWrite bytes offset v) s ≠ .refused r ∧ after (.regRead bytes offset) s ≠ .refused r)

/-- R39, R36: the word STATUS reads as, field by field. -/
def Obligations.StatusWordFields : Prop :=
  ∀ st : Status, (st.toWord.getLsbD 0 = st.busy ∧ st.toWord.getLsbD 1 = st.done ∧ st.toWord.getLsbD 2 = st.err ∧
    st.toWord.getLsbD 3 = st.wign) ∧ st.toWord.extractLsb' 4 4 = 0#4 ∧ st.toWord.extractLsb' 8 4 = st.errcode ∧
    st.toWord.extractLsb' 12 2 = st.seq ∧ st.toWord.extractLsb' 14 2 = st.effm ∧ st.toWord.extractLsb' 16 4 = st.lastOp ∧
    st.toWord.extractLsb' 20 12 = 0#12

/-- R64, R45, R37: while BUSY = 1 a result register reads as a free value, a new one each time; SEQ of a RUN in flight
reads 1 or 2, and 2 only on interlaced content; ID, CMD, IRQ_EN and the configuration registers read as stored. Once
BUSY = 0 every register of the map reads as stored, each at its own offset. The model's readings, log 9 (DEDUCED): that
STATUS, SEQ included, reads as stored while a command other than RUN is in flight, and that an illegal word with OP = 4
counts as a RUN in flight. A STATUS that shows an error code no command reports is a fault, log 14; how draws are numbered
is the model's, logs 7 to 9. -/
def Obligations.ResultReadsWhileBusyAreFree : Prop :=
  ∀ (s : State) (o : Nat) (v : Word), (o, v) ∈ registerWords s →
    (∃ r, Reg.ofOffset o = some r ∧ s.readReg r = v) ∧
    (s.status.busy = true → o ∈ resultOffsets →
      after (.regRead 4 (o : Nat)) s = .next { s with hostData := Config.drawWord s.draws, draws := s.draws + 1 }) ∧
    (s.status.busy = true → s.runInFlight = true → neverRaised s.status.errcode = false → o = 0x004 →
      ∃ seq, (seq = 1#2 ∨ seq = 2#2 ∧ s.format.interlaced = true) ∧
        after (.regRead 4 (o : Nat)) s =
          .next { s with hostData := Status.toWord { s.status with seq := seq }, draws := s.draws + 1 }) ∧
    (s.status.busy = true → s.runInFlight = false → neverRaised s.status.errcode = false → o = 0x004 →
      after (.regRead 4 (o : Nat)) s = .next { s with hostData := v }) ∧
    (s.status.busy = true → o ≠ 0x004 → o ∉ resultOffsets →
      after (.regRead 4 (o : Nat)) s = .next { s with hostData := v }) ∧
    (s.status.busy = false → o ≠ 0x004 ∨ neverRaised s.status.errcode = false →
      after (.regRead 4 (o : Nat)) s = .next { s with hostData := v }) ∧
    (o = 0x004 → neverRaised s.status.errcode = true →
      after (.regRead 4 (o : Nat)) s = .fault (.impossibleErrorCode s.status.errcode))

/-- R84: a 16-bit sample lies little-endian at `a` and `a + 1` by default, and with SAMPLE16_BE = true the two bytes
swap roles; a sample written is read back, and no other byte changes. -/
def Obligations.Sample16ByteOrder : Prop :=
  State.reset.params.sample16BE = false ∧
  (∀ (m : Memory) (a : Nat), m.read16 false a = (m.read8 a).toNat + 256 * (m.read8 (a + 1)).toNat ∧
    m.read16 true a = (m.read8 (a + 1)).toNat + 256 * (m.read8 a).toNat) ∧
  ∀ (be : Bool) (m : Memory) (a v : Nat), v < 65536 →
    (m.writeAll (cells16 be a v)).read16 be a = v ∧
    ((m.writeAll (cells16 be a v)).read8 a).toNat = (if be then v / 256 else v % 256) ∧
    ((m.writeAll (cells16 be a v)).read8 (a + 1)).toNat = (if be then v % 256 else v / 256) ∧
    (∀ b, b ≠ a → b ≠ a + 1 → (m.writeAll (cells16 be a v)).read8 b = m.read8 b)

/-- 20_memory.md R97 to R99, log 10: the host's byte accesses. While no buffer is in use they are plain; while BUSY = 1 a
write into a region leaves a free byte there and marks the command, and a read of the destination or scratch region is
free, while a source byte outside both reads as it is. -/
def Obligations.HostAccessesToBuffersInUse : Prop :=
  ∀ (s : State) (addr : Word) (v : Byte),
    let a := addr.toNat
    let used := s.status.busy = true ∧
      (s.srcRegion.covers a = true ∨ s.dstRegion.covers a = true ∨ s.scrRegion.covers a = true)
    (∃ t, after (.memWrite addr v) s = .next t ∧
      (¬used → t = { s with mem := t.mem } ∧ t.mem.read8 a = v) ∧
      (used → t = { s with mem := t.mem, hazard := true, draws := s.draws + 1 } ∧
        t.mem.read8 a = Config.drawByte s.draws a) ∧
      ∀ b, b ≠ a → t.mem.read8 b = s.mem.read8 b) ∧
    ((s.status.busy = true ∧ (s.dstRegion.covers a = true ∨ s.scrRegion.covers a = true) →
        after (.memRead addr) s =
          .next { s with hostData := (Config.drawByte s.draws a).setWidth 32, draws := s.draws + 1 }) ∧
      (s.status.busy = false ∨ s.dstRegion.covers a = false ∧ s.scrRegion.covers a = false →
        after (.memRead addr) s = .next { s with hostData := (s.mem.read8 a).setWidth 32 }))

/-- R99, log 10: after a hazard, a RUN or SCALE_PLANE that succeeds leaves a free value in every destination sample byte
outside scratch. -/
def Obligations.HazardFreesTheDestination : Prop :=
  ∀ (s : State) (w : Word) (i : Instr) (p : Plan), s.curCmd = some w → decode w = .ok i → s.hazard = true →
    s.planOf i = some p →
    ∃ t, blockTurn s = .next t ∧ t.status.done = true ∧
      ∀ a ∈ p.destAddrs, s.scrRegion.covers a = false → t.mem.get? a = some (Config.drawByte s.draws a)

/-- R330, R331: the interrupt output is the stated function, and it is deasserted by an acceptance, by CLEAR, by reset
and by clearing both enables. -/
def Obligations.InterruptOutput : Prop :=
  (∀ s : State, s.irq = true ↔ s.irqEn.doneIe = true ∧ s.status.done = true ∨
    s.irqEn.errIe = true ∧ s.status.err = true) ∧
  (∀ (s t : State) (w : Word), s.status.busy = false → after (.regWrite 4 0x008 w) s = .next t → t.irq = false) ∧
  (∀ s t : State, after .reset s = .next t → t.irq = false) ∧
  (∀ s t : State, after (.regWrite 4 0x00C 0#32) s = .next t → t.irq = false)

/-- R68: right after reset every register reads 0 except ID, nothing is in flight, the interrupt is deasserted, and a
byte of memory reads as whatever the platform leaves there. -/
def Obligations.ResetState : Prop :=
  (∀ r : Reg, State.reset.readReg r = if r = .id then 0x56534331#32 else 0#32) ∧ State.reset.curCmd = none ∧
    State.reset.irq = false ∧ ∀ a, State.reset.mem.read8 a = Config.platformByte a

/-- R350: reset at any time sets every register to its reset value and empties CUR_CMD; every byte that a command in
flight could write becomes free, and every other byte of memory is unchanged; an illegal word in flight could write
none. R67: the parameters stay. That a command could write only if it would succeed is the model's reading, log 11. -/
def Obligations.ResetInput : Prop :=
  ∀ s : State, ∃ t, after .reset s = .next t ∧
    (∀ r : Reg, t.readReg r = if r = .id then 0x56534331#32 else 0#32) ∧ t.curCmd = none ∧ t.irq = false ∧
    (∀ a, a ∉ s.inFlightAddrs → t.mem.read8 a = s.mem.read8 a) ∧
    (∀ a ∈ s.inFlightAddrs, t.mem.read8 a = Config.drawByte s.draws a) ∧
    t.params = s.params ∧
    (s.curCmd = none → s.inFlightAddrs = []) ∧
    (∀ w e, s.curCmd = some w → decode w = .error e → s.inFlightAddrs = []) ∧
    (∀ w i, s.curCmd = some w → decode w = .ok i →
      ∀ a, a ∈ s.inFlightAddrs ↔ ∃ p, s.planOf i = some p ∧ (a ∈ p.destAddrs ∨ s.scrRegion.covers a = true))

/-! ### NOP, LAYOUT, LOCATE -/

/-- R275: NOP completes successfully whatever the configuration holds, and changes STATUS only. That CUR_CMD is empty
after the success is log 5. -/
def Obligations.NopCompletes : Prop :=
  ∀ s : State, exec .nop s = .next (settled (doneStatus 0#2 s.status) s)

/-- R142, R149: the layout of every FMT code, offsets included, and no layout for the codes 24 to 31. -/
def Obligations.LayoutTableByCode : Prop :=
  ∀ (code : BitVec 5) (w h : Nat),
    let c := code.toNat
    let r := fun (n v : Nat) => (v + n - 1) / n * n
    let one := fun (stride : Nat) => ([⟨.y, w, h, h, stride, 0⟩] : Layout)
    let three := fun (first second : Role) (cw ch ah ystride cstride : Nat) =>
      ([⟨.y, w, h, ah, ystride, 0⟩, ⟨first, cw, ch, ch, cstride, ystride * ah⟩,
        ⟨second, cw, ch, ch, cstride, ystride * ah + cstride * ch⟩] : Layout)
    (Format.ofCode code).map (fun fmt => layout fmt w h) =
      if c ≤ 8 then some (one (4 * w))
      else if c = 9 then some (three .u .v w h h (r 4 w) (r 4 w))
      else if c ≤ 12 then some (one (r 4 (3 * w)))
      else if c = 13 then some (three .u .v ((w + 1) / 2) h h (r 4 w) (r 8 w / 2))
      else if c ≤ 16 then some (one (r 4 (2 * w)))
      else if c = 17 then some (three .u .v ((w + 1) / 2) ((h + 1) / 2) (r 2 h) (r 4 w) (r 4 (r 4 w / 2)))
      else if c = 18 then some (three .v .u ((w + 1) / 2) ((h + 1) / 2) (r 2 h) (r 4 w) (r 4 (r 4 w / 2)))
      else if c = 19 then some (three .u .v ((w + 3) / 4) h h (r 4 w) (r 16 w / 4))
      else if c ≤ 22 then some (one (r 4 (2 * w)))
      else if c = 23 then some (one (r 4 w))
      else none

/-- R143, R158: every stride is a multiple of 4 and at least the row bytes, every size is at least 1, and the planes are
pairwise disjoint and inside the buffer. -/
def Obligations.LayoutPlanesFillTheBuffer : Prop :=
  ∀ (fmt : Format) (w h : Nat), 1 ≤ w → 1 ≤ h →
    (∀ g ∈ layout fmt w h, 1 ≤ g.size ∧ g.stride % 4 = 0 ∧ bytesPerPixel fmt * g.w ≤ g.stride ∧
      g.offset + g.size ≤ Layout.total (layout fmt w h)) ∧
    (layout fmt w h).Pairwise fun g k => g.offset + g.size ≤ k.offset

/-- R147: every value of a layout fits in 32 bits, and the totals at 32767 × 32767 are the stated ones. -/
def Obligations.LayoutValuesFitRegisters : Prop :=
  (∀ (fmt : Format) (w h : Nat), 1 ≤ w → w ≤ 32767 → 1 ≤ h → h ≤ 32767 →
    Layout.total (layout fmt w h) < 2 ^ 32 ∧ ∀ g ∈ layout fmt w h,
      g.w < 2 ^ 32 ∧ g.h < 2 ^ 32 ∧ g.stride < 2 ^ 32 ∧ g.offset < 2 ^ 32 ∧ g.size < 2 ^ 32) ∧
  (∀ fmt : Format, Layout.total (layout fmt 32767 32767) =
    match fmt.layoutClass with
    | .packed4 => 4294705156
    | .packed3 | .planar444 => 3221127168
    | .packed422 | .packed16 | .planar422 => 2147418112
    | .planar420 => 1610612736
    | .planar411 => 1610563584
    | .packed8 => 1073709056)

/-- R157: the chroma planes 1 and 2 of I420 and of Y42B have the same stride at the same width, whatever the height, since
round4(round4(w) div 2) = round8(w) div 2. -/
def Obligations.ChromaStridesAgree : Prop :=
  ∀ w h : Nat, 1 ≤ w →
    ((w + 3) / 4 * 4 / 2 + 3) / 4 * 4 = (w + 7) / 8 * 8 / 2 ∧
    ∀ p, p = 1 ∨ p = 2 →
      ∃ g k : PlaneGeom, (layout .i420 w h)[p]? = some g ∧ (layout .y42b w h)[p]? = some k ∧
        g.stride = ((w + 3) / 4 * 4 / 2 + 3) / 4 * 4 ∧ k.stride = (w + 7) / 8 * 8 / 2 ∧ g.stride = k.stride

/-- R160: a LAYOUT of a format of the catalog and nonzero dimensions completes, shows the layout exactly in the L_
registers, and changes nothing else but STATUS. That CUR_CMD is empty after the success is log 5. -/
def Obligations.LayoutPublishesTheLayout : Prop :=
  ∀ (s : State) (sel : Sel) (fmt : Format), Format.ofCode s.format.fmt = some fmt → (s.dimOf sel).w ≠ 0#15 →
    (s.dimOf sel).h ≠ 0#15 →
    let l := layout fmt (s.dimOf sel).w.toNat (s.dimOf sel).h.toNat
    ∃ t, exec (.layout sel) s = .next t ∧ t.lNplanes.toNat = l.length ∧ t.lTotal.toNat = Layout.total l ∧
      PlaneShown t.lp0 l[0]? ∧ PlaneShown t.lp1 l[1]? ∧ PlaneShown t.lp2 l[2]? ∧
      t = settled (doneStatus 0#2 s.status)
        { s with lNplanes := t.lNplanes, lTotal := t.lTotal, lp0 := t.lp0, lp1 := t.lp1, lp2 := t.lp2 }

/-- R160, R316: LAYOUT ends with UnsupportedFormat first, then with InvalidDimension of the selected frame, and then no
L_ register changes. -/
def Obligations.LayoutErrors : Prop :=
  ∀ (s : State) (sel : Sel),
    (24 ≤ s.format.fmt.toNat → exec (.layout sel) s = .next (settled (errStatus 1#4 s.status) s)) ∧
    (s.format.fmt.toNat ≤ 23 → (s.dimOf sel).w = 0#15 ∨ (s.dimOf sel).h = 0#15 →
      exec (.layout sel) s = .next (settled (errStatus 6#4 s.status) s))

/-- R181, R182, R185, R187: a LOCATE whose checks pass completes and shows the plane's effective geometry, its pointer
modulo 2^32, in the LOC_ registers, and changes nothing else but STATUS. That CUR_CMD is empty after the success is
log 5. -/
def Obligations.LocatePublishesTheGeometry : Prop :=
  ∀ (s : State) (sel : Sel) (role : Role) (field : Field) (fmt : Format) (g : PlaneGeom),
    Format.ofCode s.format.fmt = some fmt → (s.dimOf sel).w ≠ 0#15 → (s.dimOf sel).h ≠ 0#15 →
    g ∈ layout fmt (s.dimOf sel).w.toNat (s.dimOf sel).h.toNat → g.role = role →
    (field = .f1 → s.format.interlaced = true) →
    ∃ t, exec (.locate sel role.code field) s = .next t ∧
      t.loc.ptr.toNat = ((s.baseOf sel).toNat + g.offset + (if field = .f1 then g.stride else 0)) % 2 ^ 32 ∧
      t.loc.w.toNat = g.w ∧
      t.loc.h.toNat = (if s.format.interlaced then (if field = .f0 then (g.h + 1) / 2 else g.h / 2) else g.h) ∧
      t.loc.stride.toNat = (if s.format.interlaced then 2 * g.stride else g.stride) ∧
      t = settled (doneStatus 0#2 s.status) { s with loc := t.loc }

/-- R185, R316, R127: LOCATE's errors in their order, and then no LOC_ register changes. -/
def Obligations.LocateErrors : Prop :=
  ∀ (s : State) (sel : Sel) (role : BitVec 2) (field : Field),
    let fails := fun (code : BitVec 4) => exec (.locate sel role field) s = .next (settled (errStatus code s.status) s)
    (role = 3#2 ∨ field = .f1 ∧ s.format.interlaced = false → fails 5#4) ∧
    (role ≠ 3#2 → (field = .f1 → s.format.interlaced = true) →
      (24 ≤ s.format.fmt.toNat → fails 1#4) ∧
      (s.format.fmt.toNat ≤ 23 → (s.dimOf sel).w = 0#15 ∨ (s.dimOf sel).h = 0#15 → fails 6#4) ∧
      (∀ fmt, Format.ofCode s.format.fmt = some fmt → (s.dimOf sel).w ≠ 0#15 → (s.dimOf sel).h ≠ 0#15 →
        (role = 1#2 ∨ role = 2#2) → (layout fmt (s.dimOf sel).w.toNat (s.dimOf sel).h.toNat).length = 1 → fails 8#4))

/-- R186, R189: the rows of the two fields of a plane are its rows, each once, and each lies where the physical row
does. -/
def Obligations.FieldsPartitionThePlane : Prop :=
  ∀ (g : PlaneGeom) (base : Nat),
    (∀ k, k < g.h →
      ¬((∃ r, r < (locate g base .f0 true).h ∧ k = 2 * r) ↔ ∃ r, r < (locate g base .f1 true).h ∧ k = 2 * r + 1)) ∧
    (∀ r, r < (locate g base .f0 true).h → 2 * r < g.h ∧
      (locate g base .f0 true).ptr + r * (locate g base .f0 true).stride = base + g.offset + 2 * r * g.stride) ∧
    (∀ r, r < (locate g base .f1 true).h → 2 * r + 1 < g.h ∧
      (locate g base .f1 true).ptr + r * (locate g base .f1 true).stride = base + g.offset + (2 * r + 1) * g.stride)

/-! ### Kernels -/

/-- R202, R206, R210: the source coordinate is the truncated real one, its integer part is the NEAREST index and lies in
the image, and equal extents map every index to itself. -/
def Obligations.SourceCoordinateInRange : Prop :=
  ∀ i nSrc nDst : Nat, 1 ≤ nSrc → i < nDst →
    srcPos i nSrc nDst = i * nSrc * 65536 / nDst ∧ srcIndex i nSrc nDst ≤ nSrc - 1 ∧
    srcIndex i nSrc nDst = i * nSrc / nDst ∧ srcFrac i nSrc nDst < 65536 ∧
    (nSrc = nDst → srcIndex i nSrc nDst = i ∧ srcFrac i nSrc nDst = 0)

/-- R210: NEAREST takes the source sample at (⌊x·sw/dw⌋, ⌊y·sh/dh⌋), which is the integer part of R202's source
coordinate; a source of extent 1 and a destination of extent 1 take index 0; downscaling by an integer factor k takes
every k-th sample. -/
def Obligations.NearestTakesTheFloorSample : Prop :=
  ∀ (taps : Config.TapTable) (img : Nat → Nat → Nat) (sw sh dw dh m x y : Nat), 1 ≤ sw → 1 ≤ sh → x < dw → y < dh →
    kernel taps .nearest img sw sh dw dh m x y = img (x * sw / dw) (y * sh / dh) ∧
    kernel taps .nearest img sw sh dw dh m x y = img (srcIndex x sw dw) (srcIndex y sh dh) ∧
    (sw = 1 ∨ dw = 1 → srcIndex x sw dw = 0) ∧ (sh = 1 ∨ dh = 1 → srcIndex y sh dh = 0) ∧
    ∀ k j : Nat, sw = k * dw → sh = j * dh → kernel taps .nearest img sw sh dw dh m x y = img (k * x) (j * y)

/-- R216: a BILINEAR output of samples in [lo, hi], hi ≤ M, is in [lo, hi], so the clamp never changes it. -/
def Obligations.BilinearStaysBetweenItsSamples : Prop :=
  ∀ (taps : Config.TapTable) (img : Nat → Nat → Nat) (sw sh dw dh m x y lo hi : Nat), 1 ≤ sw → 1 ≤ sh → x < dw → y < dh →
    (∀ cx cy, (cx = srcIndex x sw dw ∨ cx = min (srcIndex x sw dw + 1) (sw - 1)) →
      (cy = srcIndex y sh dh ∨ cy = min (srcIndex y sh dh + 1) (sh - 1)) → lo ≤ img cx cy ∧ img cx cy ≤ hi) →
    hi ≤ m → lo ≤ kernel taps .bilinear img sw sh dw dh m x y ∧ kernel taps .bilinear img sw sh dw dh m x y ≤ hi

/-- R222, R223, R224: the default tap table: each of T0, T2 and T3 is its cubic's numerator over 32768 rounded half up, T1
is the remainder, and the properties R223 lists. -/
def Obligations.DefaultTapTable : Prop :=
  let taps := State.reset.params.taps
  tapRow taps 0 = ⟨0, 1024, 0, 0⟩ ∧ tapRow taps 128 = ⟨-64, 576, 576, -64⟩ ∧
  ∀ ph : Nat, ph < 256 →
    let t := tapRow taps ph
    let p : Int := ph
    let rounds := fun (v n : Int) => v * 32768 ≤ n + 16384 ∧ n + 16384 < (v + 1) * 32768
    rounds t.t0 (-p ^ 3 + 512 * p ^ 2 - 65536 * p) ∧ rounds t.t2 (-3 * p ^ 3 + 1024 * p ^ 2 + 65536 * p) ∧
      rounds t.t3 (p ^ 3 - 256 * p ^ 2) ∧
      t.t0 + t.t1 + t.t2 + t.t3 = 1024 ∧ (-76 ≤ t.t0 ∧ t.t0 ≤ 0) ∧ (-76 ≤ t.t3 ∧ t.t3 ≤ 0) ∧ (2 ≤ t.t1 ∧ t.t1 ≤ 1024) ∧
      (0 ≤ t.t2 ∧ t.t2 ≤ 1024) ∧ t.t1 + t.t2 ≤ 1152 ∧ -128 ≤ t.t0 + t.t3

/-- R224: a constant image scales to itself by every method, by 4TAP with any tap table whose rows sum to 1024. -/
def Obligations.ConstantImagesScaleToThemselves : Prop :=
  ∀ (taps : Config.TapTable) (method : Method) (c m : Nat), c ≤ m →
    (method = .fourTap → ∀ ph, ph < 256 →
      (tapRow taps ph).t0 + (tapRow taps ph).t1 + (tapRow taps ph).t2 + (tapRow taps ph).t3 = 1024) →
    ∀ sw sh dw dh x y : Nat, kernel taps method (fun _ _ => c) sw sh dw dh m x y = c

/-- R204: no sample outside the channel image is ever read. -/
def Obligations.KernelsReadOnlyTheImage : Prop :=
  ∀ (taps : Config.TapTable) (method : Method) (img img' : Nat → Nat → Nat) (sw sh dw dh m x y : Nat), 1 ≤ sw → 1 ≤ sh → x < dw → y < dh →
    (∀ cx cy, cx < sw → cy < sh → img cx cy = img' cx cy) →
    kernel taps method img sw sh dw dh m x y = kernel taps method img' sw sh dw dh m x y

/-- R206, R224, R256: at equal extents every method returns the image, by any tap table whose row 0 is the unit tap. -/
def Obligations.EqualExtentsGiveTheImage : Prop :=
  ∀ (taps : Config.TapTable) (method : Method) (img : Nat → Nat → Nat) (w h m x y : Nat), x < w → y < h →
    tapRow taps 0 = ⟨0, 1024, 0, 0⟩ → (∀ cx cy, cx < w → cy < h → img cx cy ≤ m) → kernel taps method img w h w h m x y = img x y

/-- R244, R255: every channel value written is in [0, M_c], and the composed sample holds each channel unchanged in its
own field. -/
def Obligations.ChannelsStayInTheirFields : Prop :=
  ∀ (fmt : Format) (u : SampleUnit) (c : Channel) (P : Config.Params) (method : Method) (mem : Memory) (pf : PlaneField) (x y : Nat),
    u ∈ unitsOf fmt → c ∈ u.channels →
    u.scaled P c method mem pf x y ≤ c.max ∧ c.value (u.compose P method mem pf x y) = u.scaled P c method mem pf x y ∧
      u.compose P method mem pf x y < 2 ^ (8 * u.bytes)

/-! ### SCALE_PLANE and RUN -/

/-- R290 to R292, R271: a RUN whose checks pass completes; it changes STATUS, the destination sample bytes and scratch,
and nothing else. That CUR_CMD is empty after the success is log 5. -/
def Obligations.RunCompletes : Prop :=
  ∀ (i : Instr) (m : Method), (i, m) ∈ runForms → ∀ (s : State) (fmt : Format) (lsrc ldst : Layout),
    Frames s fmt lsrc ldst → SourceRows (s.frameWork lsrc ldst) → Buffers s lsrc ldst →
    ∃ t, exec i s = .next t ∧
      t = settled (doneStatus 3#2 (withMethod (s.effMethod m) s.status)) { s with mem := t.mem, draws := s.draws + 1 } ∧
      ∀ a, a ∉ destBytes fmt (s.frameWork lsrc ldst) → s.scrRegion.covers a = false → t.mem.read8 a = s.mem.read8 a

/-- R280 to R282, R271: a SCALE_PLANE whose checks pass completes; it changes STATUS, the destination sample bytes of the
addressed plane-field and scratch, and nothing else. That CUR_CMD is empty after the success is log 5. -/
def Obligations.ScalePlaneCompletes : Prop :=
  ∀ (role : Role) (field : Field) (i : Instr) (m : Method), (i, m) ∈ planeForms role.code field →
    ∀ (s : State) (fmt : Format) (lsrc ldst : Layout) (gs gd : PlaneGeom), Frames s fmt lsrc ldst →
    (field = .f1 → s.format.interlaced = true) → gs ∈ lsrc → gs.role = role → gd ∈ ldst → gd.role = role →
    SourceRows [s.planeField field gs gd] → Buffers s lsrc ldst →
    ∃ t, exec i s = .next t ∧
      t = settled (doneStatus 0#2 (withMethod (s.effMethod m) s.status)) { s with mem := t.mem, draws := s.draws + 1 } ∧
      ∀ a, a ∉ destBytes fmt [s.planeField field gs gd] → s.scrRegion.covers a = false → t.mem.read8 a = s.mem.read8 a

/-- R94, R249, R277, R279, R241 to R246: a RUN whose checks pass, with no hazard, leaves at every sample of every channel
of every destination plane in every field the kernel of the source channel image at the extents of the source and the
destination plane; and at every destination sample the sample composed of these values. -/
def Obligations.RunWritesTheFrame : Prop :=
  ∀ (i : Instr) (m : Method), (i, m) ∈ runForms → ∀ (s : State) (fmt : Format) (lsrc ldst : Layout),
    Frames s fmt lsrc ldst → SourceRows (s.frameWork lsrc ldst) → Buffers s lsrc ldst → s.hazard = false →
    ∃ t, exec i s = .next t ∧ t.status.done = true ∧
      (∀ field, field = .f0 ∨ field = .f1 ∧ s.format.interlaced = true →
        ∀ (p : Nat) (gs gd : PlaneGeom), lsrc[p]? = some gs → ldst[p]? = some gd →
          Scaled s (s.effMethod m) t.mem (fieldPlane gs s.srcBase.toNat field s.format.interlaced)
            (fieldPlane gd s.dstBase.toNat field s.format.interlaced)) ∧
      ∀ pf ∈ s.frameWork lsrc ldst, ∀ u ∈ unitsOf fmt, ∀ x r : Nat, x < u.width pf.dst.w → r < pf.dst.h →
        u.read s.params.sample16BE t.mem (u.addr pf.dst x r) = u.compose s.params (s.effMethod m) s.mem pf x r

/-- R94, R249, R279, R241 to R246: the same of a SCALE_PLANE and its one plane-field. -/
def Obligations.ScalePlaneWritesThePlane : Prop :=
  ∀ (role : Role) (field : Field) (i : Instr) (m : Method), (i, m) ∈ planeForms role.code field →
    ∀ (s : State) (fmt : Format) (lsrc ldst : Layout) (gs gd : PlaneGeom), Frames s fmt lsrc ldst →
    (field = .f1 → s.format.interlaced = true) → gs ∈ lsrc → gs.role = role → gd ∈ ldst → gd.role = role →
    SourceRows [s.planeField field gs gd] → Buffers s lsrc ldst → s.hazard = false →
    ∃ t, exec i s = .next t ∧ t.status.done = true ∧
      Scaled s (s.effMethod m) t.mem (fieldPlane gs s.srcBase.toNat field s.format.interlaced)
        (fieldPlane gd s.dstBase.toNat field s.format.interlaced) ∧
      ∀ u ∈ unitsOf fmt, ∀ x r : Nat, x < u.width gd.w → r < (s.planeField field gs gd).dst.h →
        u.read s.params.sample16BE t.mem (u.addr (s.planeField field gs gd).dst x r) =
          u.compose s.params (s.effMethod m) s.mem (s.planeField field gs gd) x r

/-- R316: the checks of a RUN in their order; the first that fails gives the code, and only STATUS changes, EFFM
included. -/
def Obligations.RunReportsTheFirstFailingCheck : Prop :=
  ∀ (i : Instr) (m : Method), (i, m) ∈ runForms → ∀ s : State,
    let fails := fun (code : BitVec 4) =>
      exec i s = .next (settled (errStatus code (withMethod (s.effMethod m) s.status)) s)
    (24 ≤ s.format.fmt.toNat → fails 1#4) ∧
    (s.format.fmt.toNat ≤ 23 →
      s.srcDim.w = 0#15 ∨ s.srcDim.h = 0#15 ∨ s.dstDim.w = 0#15 ∨ s.dstDim.h = 0#15 → fails 6#4) ∧
    ∀ (fmt : Format) (lsrc ldst : Layout), Frames s fmt lsrc ldst →
      (¬SourceRows (s.frameWork lsrc ldst) → fails 6#4) ∧
      (SourceRows (s.frameWork lsrc ldst) →
        (¬SizesFit s lsrc ldst → fails 4#4) ∧
        (SizesFit s lsrc ldst →
          (¬RegionsEnd s → fails 10#4) ∧
          (RegionsEnd s →
            (¬ScratchFits s ldst → fails 7#4) ∧
            (ScratchFits s ldst → ¬RegionsApart s → fails 9#4))))

/-- R316, R127: the checks of a SCALE_PLANE in their order, the decode check first and without EFFM. -/
def Obligations.ScalePlaneReportsTheFirstFailingCheck : Prop :=
  ∀ (role : BitVec 2) (field : Field) (i : Instr) (m : Method), (i, m) ∈ planeForms role field → ∀ s : State,
    let fails := fun (code : BitVec 4) =>
      exec i s = .next (settled (errStatus code (withMethod (s.effMethod m) s.status)) s)
    (role = 3#2 ∨ field = .f1 ∧ s.format.interlaced = false →
      exec i s = .next (settled (errStatus 5#4 s.status) s)) ∧
    (role ≠ 3#2 → (field = .f1 → s.format.interlaced = true) →
      (24 ≤ s.format.fmt.toNat → fails 1#4) ∧
      (s.format.fmt.toNat ≤ 23 →
        s.srcDim.w = 0#15 ∨ s.srcDim.h = 0#15 ∨ s.dstDim.w = 0#15 ∨ s.dstDim.h = 0#15 → fails 6#4) ∧
      ∀ (fmt : Format) (lsrc ldst : Layout), Frames s fmt lsrc ldst →
        ((∀ g ∈ lsrc, g.role.code ≠ role) → fails 8#4) ∧
        ∀ gs ∈ lsrc, ∀ gd ∈ ldst, gs.role.code = role → gd.role.code = role →
          (¬SourceRows [s.planeField field gs gd] → fails 6#4) ∧
          (SourceRows [s.planeField field gs gd] →
            (¬SizesFit s lsrc ldst → fails 4#4) ∧
            (SizesFit s lsrc ldst →
              (¬RegionsEnd s → fails 10#4) ∧
              (RegionsEnd s →
                (¬ScratchFits s ldst → fails 7#4) ∧
                (ScratchFits s ldst → ¬RegionsApart s → fails 9#4)))))

/-- R320, R321: an error completion sets ERR, clears DONE and BUSY, and leaves every byte of memory and every register
but STATUS as it was. -/
def Obligations.ErrorCompletionsTouchNothing : Prop :=
  ∀ (i : Instr) (s t : State), i ≠ .clear → exec i s = .next t → t.status.done = false →
    t.status.err = true ∧ t.status.busy = false ∧ t.status.seq = 0#2 ∧ t.status.errcode ≠ 0#4 ∧
      t.status.wign = s.status.wign ∧ t.status.lastOp = s.status.lastOp ∧ t = settled t.status s

/-- R46, R250: EFFM takes the effective method at the completion of a RUN, and of a SCALE_PLANE past its decode check;
no other command changes it. -/
def Obligations.EffectiveMethodIsRecorded : Prop :=
  (∀ (s : State) (m : Method), s.effMethod m = if m = .fourTap ∧ s.srcDim.h.toNat < 4 then .bilinear else m) ∧
  (∀ (i : Instr) (m : Method) (s t : State), (i, m) ∈ runForms → exec i s = .next t →
    t.status.effm = (s.effMethod m).code) ∧
  (∀ (role : BitVec 2) (field : Field) (i : Instr) (m : Method) (s t : State), (i, m) ∈ planeForms role field →
    exec i s = .next t →
    t.status.effm = if i.legal s.format.interlaced = true then (s.effMethod m).code else s.status.effm) ∧
  (∀ (i : Instr) (s t : State), isScale i = false → exec i s = .next t → t.status.effm = s.status.effm)

/-- R254: with a source height below 4, 4TAP and BILINEAR leave the same state. That scratch bytes, and destination bytes
after a hazard, agree too is the model's numbering of draws, log 7. -/
def Obligations.DowngradedFourTapIsBilinear : Prop :=
  ∀ s : State, s.srcDim.h.toNat < 4 →
    exec .runFourTap s = exec .runBilinear s ∧
    ∀ (role : BitVec 2) (field : Field),
      exec (.scalePlaneFourTap role field) s = exec (.scalePlaneBilinear role field) s

/-- R256: with DST_DIM = SRC_DIM a RUN of any method writes every destination sample byte with the value of the source
sample byte at the same offset, on a block with any tap table that R224 allows. -/
def Obligations.RunAtEqualSizeIsTheIdentity : Prop :=
  ∀ (i : Instr) (m : Method), (i, m) ∈ runForms → ∀ (s : State) (fmt : Format) (lsrc ldst : Layout),
    Frames s fmt lsrc ldst → SourceRows (s.frameWork lsrc ldst) → Buffers s lsrc ldst → s.hazard = false →
    s.dstDim = s.srcDim → TapsValid s.params.taps →
    ∃ t, exec i s = .next t ∧ t.status.done = true ∧ ∀ k,
      s.dstBase.toNat + k ∈ destBytes fmt (s.frameWork lsrc ldst) →
        t.mem.read8 (s.dstBase.toNat + k) = s.mem.read8 (s.srcBase.toNat + k)

/-- R82, R83, R93, R8: two memories that agree on the source region give the same destination sample bytes, whatever
scratch, destination and the rest of memory held. A hazard is left out: it makes those bytes free (R99, log 7). -/
def Obligations.OnlyTheSourceRegionMatters : Prop :=
  ∀ (i : Instr) (s : State) (m' : Memory) (p : Plan) (t t' : State), s.hazard = false → s.planOf i = some p →
    (∀ a, s.srcRegion.covers a = true → m'.read8 a = s.mem.read8 a) →
    exec i s = .next t → exec i { s with mem := m' } = .next t' →
    ∀ a ∈ p.destAddrs, t'.mem.read8 a = t.mem.read8 a

/-- R294: outside scratch, a successful RUN leaves the memory that the SCALE_PLANE commands of its plane-fields leave one
after another. -/
def Obligations.RunEqualsItsPlanes : Prop :=
  ∀ (m : Method) (s : State) (fmt : Format) (lsrc ldst : Layout), Frames s fmt lsrc ldst →
    SourceRows (s.frameWork lsrc ldst) → Buffers s lsrc ldst → s.hazard = false →
    ∃ t q, exec (runCommand m) s = .next t ∧ t.status.done = true ∧
      execAll (s.fields.flatMap fun f => lsrc.map fun g => planeCommand m g.role f) s = .next q ∧
      q.status.done = true ∧ ∀ a, s.scrRegion.covers a = false → q.mem.read8 a = t.mem.read8 a

/-- R92: after a successful SCALE_PLANE or RUN every scratch byte holds a free value of its own draw; after any other
command and after an error the bytes of memory are unchanged. How draws are numbered is the model's, log 7. -/
def Obligations.ScratchIsUnspecifiedAfterSuccess : Prop :=
  ∀ (i : Instr) (s t : State), exec i s = .next t →
    (isScale i = true → t.status.done = true → t.draws = s.draws + 1 ∧
      ∀ a, s.scrRegion.covers a = true → t.mem.get? a = some (Config.drawByte s.draws a)) ∧
    (isScale i = false ∨ t.status.done = false → t.mem = s.mem ∧ t.draws = s.draws)

/-- R274, R353, R67: a command writes only STATUS and its own results: the frame of every command. A byte of memory
changes only if a SCALE_PLANE or RUN whose checks pass has it as a destination sample byte or in scratch. -/
def Obligations.CommandsWriteOnlyTheirResults : Prop :=
  ∀ (i : Instr) (s t : State), exec i s = .next t →
    (t.irqEn = s.irqEn ∧ t.format = s.format ∧ t.srcDim = s.srcDim ∧ t.dstDim = s.dstDim ∧ t.srcBase = s.srcBase ∧
      t.srcSize = s.srcSize ∧ t.dstBase = s.dstBase ∧ t.dstSize = s.dstSize ∧ t.scrBase = s.scrBase ∧
      t.scrSize = s.scrSize ∧ t.params = s.params ∧ t.hostData = s.hostData ∧ t.schedule = s.schedule) ∧
    (isLayout i = false → t.lNplanes = s.lNplanes ∧ t.lTotal = s.lTotal ∧ t.lp0 = s.lp0 ∧ t.lp1 = s.lp1 ∧
      t.lp2 = s.lp2) ∧
    (isLocate i = false → t.loc = s.loc) ∧
    (isScale i = false → ∀ a, t.mem.read8 a = s.mem.read8 a) ∧
    (∀ p, s.planOf i = some p → ∀ a, a ∉ p.destAddrs → s.scrRegion.covers a = false → t.mem.read8 a = s.mem.read8 a) ∧
    (s.planOf i = none → ∀ a, t.mem.read8 a = s.mem.read8 a) ∧
    (t.status.wign = s.status.wign ∧ t.status.lastOp = s.status.lastOp ∨ i = .clear)

/-! ### The whole machine -/

/-- R271, R320, R322: in every state every command answers a next state, and each but CLEAR ends its flight: BUSY = 0,
CUR_CMD empty (after a success, log 5), DONE or ERR set. -/
def Obligations.EveryCommandCompletes : Prop :=
  ∀ (i : Instr) (s : State), ∃ t, exec i s = .next t ∧
    (i ≠ .clear → t.status.busy = false ∧ t.curCmd = none ∧ (t.status.done = true ∨ t.status.err = true))

/-- R270, R271, log 2: the command in flight runs at the block's turn, and CLEAR at its write. -/
def Obligations.StepRunsTheDecodedCommand : Prop :=
  (∀ (s : State) (w : Word) (i : Instr), s.schedule = [] → s.curCmd = some w → decode w = .ok i → step s = exec i s) ∧
  (∀ (s : State) (rest : List HostEvent) (w : Word) (i : Instr), s.schedule = .blockTurn :: rest → s.curCmd = some w →
    decode w = .ok i → step s = exec i { s with schedule := rest }) ∧
  (∀ (s : State) (rest : List HostEvent), s.schedule = .regWrite 4 0x008 0x00000005#32 :: rest →
    s.status.busy = false → step s = exec .clear { s with schedule := rest }) ∧
  (∀ (s : State) (rest : List HostEvent), s.curCmd = none → (s.schedule = [] → step s = .next s) ∧
    (s.schedule = .blockTurn :: rest → step s = .next { s with schedule := rest }))

/-- R271, R273, R324: a word issued to an idle block has completed when the block has had its turn, and the block is
ready again. That CUR_CMD is empty after a success is log 5, and the schedule is log 2. -/
def Obligations.IssuedCommandsComplete : Prop :=
  ∀ (s : State) (w : Word) (rest : List HostEvent), s.status.busy = false → s.curCmd = none →
    s.schedule = .regWrite 4 0x008 w :: .blockTurn :: rest →
    ∃ u t, step s = .next u ∧ step u = .next t ∧ t.status.busy = false ∧ t.curCmd = none ∧
      t.status.lastOp = w.extractLsb' 0 4 ∧ t.schedule = rest

/-- R41 to R47, R66, R67, logs 5, 6, 10 and 16: every step keeps the block's invariant and the instance's parameters. -/
def Obligations.StepKeepsTheInvariant : Prop :=
  ∀ (P : Config.Params) (s t : State), s.Inv ∧ s.params = P → step s = .next t → t.Inv ∧ t.params = P

/-- R68: the reset state satisfies the invariant. -/
def Obligations.ResetSatisfiesTheInvariant : Prop := State.reset.Inv

/-- R312, R34: no step from a state that satisfies the invariant faults, and only a register access that is not admitted
is refused: not 4 bytes wide, or not at a multiple of 4 inside the window. -/
def Obligations.NoStepFaults : Prop :=
  ∀ s : State, s.Inv → (∀ f, step s ≠ .fault f) ∧
    ∀ r, step s = .refused r → ∃ bytes offset rest, r = .registerAccess bytes offset ∧
      ¬(bytes = 4 ∧ 0 ≤ offset ∧ offset < 256 ∧ offset % 4 = 0) ∧
      ((∃ v, s.schedule = .regWrite bytes offset v :: rest) ∨ s.schedule = .regRead bytes offset :: rest)

/-- R80, R90: every step keeps memory inside the address space, so no address the block writes is 2^32 or above. -/
def Obligations.MemoryStaysInTheAddressSpace : Prop :=
  ∀ s t : State, s.mem.inSpace → step s = .next t → t.mem.inSpace

/-! ### The values of the kernels -/

/-- R215: the BILINEAR value: each source row blended at (ip, fr) of x, rounded half up and clamped, then the rows j and
min(j + 1, sh − 1) blended at (j, g) of y. -/
def Obligations.BilinearValue : Prop :=
  ∀ (taps : Config.TapTable) (img : Nat → Nat → Nat) (sw sh dw dh m x y : Nat), 1 ≤ sw → 1 ≤ sh → x < dw → y < dh →
    let pos := fun i nSrc nDst : Nat => i * nSrc * 65536 / nDst
    let blend := fun a b f : Nat => min ((a * (65536 - f) + b * f + 32768) / 65536) m
    let i := pos x sw dw / 65536
    let f := pos x sw dw % 65536
    let j := pos y sh dh / 65536
    let g := pos y sh dh % 65536
    let row := fun r : Nat => blend (img i r) (img (min (i + 1) (sw - 1)) r) f
    kernel taps .bilinear img sw sh dw dh m x y = blend (row j) (row (min (j + 1) (sh - 1))) g

/-- R220, R221, R225: the 4TAP value: the taps T0 to T3 of phase fr div 256 weigh the samples at ip − 1, ip, ip + 1 and
ip + 2, indices outside the image taking the edge's; each pass rounds half up by floor division and clamps. -/
def Obligations.FourTapValue : Prop :=
  ∀ (taps : Config.TapTable) (img : Nat → Nat → Nat) (sw sh dw dh m x y : Nat), 1 ≤ sw → 1 ≤ sh → x < dw → y < dh →
    let pos := fun i nSrc nDst : Nat => i * nSrc * 65536 / nDst
    let clampTo := fun v : Int => if v < 0 then 0 else if (m : Int) < v then m else v.toNat
    let axis := fun (s : Nat → Nat) (nSrc nDst i : Nat) =>
      let k := pos i nSrc nDst / 65536
      let t := tapRow taps (pos i nSrc nDst % 65536 / 256)
      let acc : Int := t.t0 * s (k - 1) + t.t1 * s k + t.t2 * s (min (k + 1) (nSrc - 1)) + t.t3 * s (min (k + 2) (nSrc - 1))
      clampTo ((acc + 512) / 1024)
    kernel taps .fourTap img sw sh dw dh m x y = axis (fun r => axis (fun c => img c r) sw dw x) sh dh y
end

