-- ==== Sys2Proof/Laws/Memory.lean ====
section
/-! SUPPORT. What the memory operations do: a read after a write, the frame of a write, and that every operation keeps
the canonical form and the address space (spec 00_scope.md R13, 20_memory.md R80, R89). -/

namespace Sys2Proof.Machine

@[simp] theorem Memory.get?_nil (a : Nat) : Memory.get? [] a = none := rfl

theorem Memory.get?_cons (b : Nat) (v : Byte) (m : Memory) (a : Nat) :
    Memory.get? ((b, v) :: m) a = if a = b then some v else Memory.get? m a := rfl

/-- A byte read after it is written gives the value written (R13). -/
@[simp] theorem Memory.get?_write8_same (a : Nat) (v : Byte) (m : Memory) : (m.write8 a v).get? a = some v := by
  induction m with
  | nil => simp [Memory.write8, Memory.get?_cons]
  | cons c m ih =>
    obtain ⟨b, w⟩ := c
    unfold Memory.write8
    split
    · simp [Memory.get?_cons]
    · split
      · simp [Memory.get?_cons]
      · rename_i h
        simpa [Memory.get?_cons, h] using ih

/-- A write changes only the addressed byte (R89). -/
theorem Memory.get?_write8_other {a b : Nat} (h : b ≠ a) (v : Byte) (m : Memory) :
    (m.write8 a v).get? b = m.get? b := by
  induction m with
  | nil => simp [Memory.write8, Memory.get?_cons, h]
  | cons c m ih =>
    obtain ⟨k, w⟩ := c
    unfold Memory.write8
    split
    · simp [Memory.get?_cons, h]
    · split
      · rename_i hk
        subst hk
        simp [Memory.get?_cons, h]
      · simp [Memory.get?_cons, ih]

theorem Memory.get?_write8 (a b : Nat) (v : Byte) (m : Memory) :
    (m.write8 a v).get? b = if b = a then some v else m.get? b := by
  by_cases h : b = a
  · simp [h]
  · simp [h, Memory.get?_write8_other h]

@[simp] theorem Memory.writeAll_nil (m : Memory) : m.writeAll [] = m := rfl

@[simp] theorem Memory.writeAll_cons (c : Host.Cell) (cells : List Host.Cell) (m : Memory) :
    m.writeAll (c :: cells) = (m.write8 c.1 c.2).writeAll cells := rfl

theorem Memory.writeAll_append (cs ds : List Host.Cell) (m : Memory) :
    m.writeAll (cs ++ ds) = (m.writeAll cs).writeAll ds := by
  simp [Memory.writeAll, List.foldl_append]

/-- An address no cell names reads as before. -/
theorem Memory.get?_writeAll_other {cells : List Host.Cell} {a : Nat} (h : a ∉ cells.map Prod.fst) (m : Memory) :
    (m.writeAll cells).get? a = m.get? a := by
  induction cells generalizing m with
  | nil => rfl
  | cons c cs ih =>
    simp only [List.map_cons, List.mem_cons, not_or] at h
    rw [Memory.writeAll_cons, ih h.2, Memory.get?_write8_other h.1]

/-- A cell whose address no later cell names is what its address holds. -/
theorem Memory.get?_writeAll_last {cs ds : List Host.Cell} {c : Host.Cell} (h : c.1 ∉ ds.map Prod.fst) (m : Memory) :
    (m.writeAll (cs ++ c :: ds)).get? c.1 = some c.2 := by
  rw [Memory.writeAll_append, Memory.writeAll_cons, Memory.get?_writeAll_other h, Memory.get?_write8_same]

/-- Where every address is written once, each cell is what its address holds. -/
theorem Memory.get?_writeAll_of_mem {cells : List Host.Cell} (hn : (cells.map Prod.fst).Nodup) {c : Host.Cell}
    (hc : c ∈ cells) (m : Memory) : (m.writeAll cells).get? c.1 = some c.2 := by
  obtain ⟨cs, ds, rfl⟩ := List.append_of_mem hc
  refine Memory.get?_writeAll_last ?_ m
  simp only [List.map_append, List.map_cons, List.nodup_append, List.nodup_cons] at hn
  exact hn.2.1.1

/-- Two memories that agree at an address agree there as the machine reads it. -/
theorem Memory.read8_congr {m m' : Memory} {a : Nat} (h : m.get? a = m'.get? a) : m.read8 a = m'.read8 a := by
  simp [Memory.read8, h]

theorem Memory.read8_of_get? {m : Memory} {a : Nat} {v : Byte} (h : m.get? a = some v) : m.read8 a = v := by
  simp [Memory.read8, h]

/-- The addresses a write can list: those listed before and the one written. -/
theorem Memory.mem_write8 {a : Nat} {v : Byte} {m : Memory} {c : Host.Cell} (h : c ∈ m.write8 a v) :
    c = (a, v) ∨ c ∈ m := by
  induction m with
  | nil => simpa [Memory.write8] using h
  | cons d m ih =>
    obtain ⟨b, w⟩ := d
    unfold Memory.write8 at h
    split at h
    · simpa using h
    · split at h
      · rcases List.mem_cons.1 h with h | h
        · exact .inl h
        · exact .inr (List.mem_cons_of_mem _ h)
      · rcases List.mem_cons.1 h with h | h
        · exact .inr (h ▸ List.mem_cons_self)
        · exact (ih h).imp_right (List.mem_cons_of_mem _)

/-- A write keeps the canonical form. -/
theorem Memory.wf_write8 {m : Memory} (h : m.wf) (a : Nat) (v : Byte) : (m.write8 a v).wf := by
  induction m with
  | nil => simp [Memory.write8, Memory.wf]
  | cons c m ih =>
    obtain ⟨b, w⟩ := c
    simp only [Memory.wf, List.map_cons, List.pairwise_cons] at h
    obtain ⟨hb, hm⟩ := h
    unfold Memory.write8
    split
    · rename_i hab
      refine List.pairwise_cons.2 ⟨?_, List.pairwise_cons.2 ⟨hb, hm⟩⟩
      intro k hk
      rcases List.mem_cons.1 hk with rfl | hk
      · exact hab
      · exact hab.trans (hb k hk)
    · split
      · rename_i hab
        subst hab
        exact List.pairwise_cons.2 ⟨hb, hm⟩
      · refine List.pairwise_cons.2 ⟨?_, ih hm⟩
        intro k hk
        obtain ⟨c, hc, rfl⟩ := List.mem_map.1 hk
        rcases Memory.mem_write8 hc with rfl | hc
        · show b < a
          omega
        · exact hb _ (List.mem_map_of_mem hc)

/-- Writes one after another keep the canonical form. -/
theorem Memory.wf_writeAll {m : Memory} (h : m.wf) (cells : List Host.Cell) : (m.writeAll cells).wf := by
  induction cells generalizing m with
  | nil => exact h
  | cons c cs ih => exact ih (Memory.wf_write8 h c.1 c.2)

/-- A write inside the address space keeps memory inside it. -/
theorem Memory.inSpace_write8 {m : Memory} (h : m.inSpace) {a : Nat} (ha : a < 2 ^ Config.addrBits) (v : Byte) :
    (m.write8 a v).inSpace := by
  intro c hc
  rcases Memory.mem_write8 hc with rfl | hc
  · exact ha
  · exact h c hc

/-- Writes inside the address space keep memory inside it. -/
theorem Memory.inSpace_writeAll {m : Memory} (h : m.inSpace) {cells : List Host.Cell}
    (hc : ∀ c ∈ cells, c.1 < 2 ^ Config.addrBits) : (m.writeAll cells).inSpace := by
  induction cells generalizing m with
  | nil => exact h
  | cons c cs ih =>
    exact ih (Memory.inSpace_write8 h (hc c List.mem_cons_self) c.2) fun d hd => hc d (List.mem_cons_of_mem _ hd)

/-- Free bytes are written at the addresses they are drawn for. -/
@[simp] theorem drawnCells_addrs (n : Nat) (addrs : List Nat) : (drawnCells n addrs).map Prod.fst = addrs := by
  simp [drawnCells, Function.comp_def]

/-- A sample's writes cover exactly its bytes. -/
theorem SampleUnit.cells_addrs (u : SampleUnit) (be : Bool) (a v : Nat) :
    (u.cells be a v).map Prod.fst = (List.range u.bytes).map (a + ·) := by
  unfold SampleUnit.cells SampleUnit.bytes cells16 cells8
  cases u.wide <;> cases be <;> simp [List.range_succ]

/-- A plane-field's writes cover exactly its destination sample bytes (R94, R248). -/
theorem PlaneField.cells_addrs (P : Config.Params) (method : Method) (units : List SampleUnit) (m : Memory)
    (pf : PlaneField) : (pf.cells P method units m).map Prod.fst = sampleAddrs units pf.dst := by
  simp [PlaneField.cells, sampleAddrs, List.map_flatMap, SampleUnit.cells_addrs]

/-- A plan's writes cover exactly its destination sample bytes (R94, R248). -/
@[simp] theorem Plan.cells_addrs (p : Plan) (P : Config.Params) (m : Memory) : (p.cells P m).map Prod.fst = p.destAddrs := by
  simp [Plan.cells, Plan.destAddrs, List.map_flatMap, PlaneField.cells_addrs]

/-- The addresses of a region are those it covers (R81). -/
theorem Region.mem_addrs (r : Region) (a : Nat) : a ∈ r.addrs ↔ r.covers a = true := by
  simp only [Region.addrs, Region.covers, List.mem_map, List.mem_range, Bool.and_eq_true, decide_eq_true_eq]
  constructor
  · rintro ⟨k, hk, rfl⟩
    omega
  · rintro ⟨h1, h2⟩
    exact ⟨a - r.base, by omega, by omega⟩

end Sys2Proof.Machine
end

