-- ==== Sys2Proof/Laws/State.lean ====
section
/-! SUPPORT. One lemma for each field of State under each named update, so that no proof unfolds a record update. -/

namespace Sys2Proof.Machine

variable (s : State)

@[simp] theorem State.writeCells_status (cells : List Host.Cell) : (s.writeCells cells).status = s.status := rfl
@[simp] theorem State.writeCells_irqEn (cells : List Host.Cell) : (s.writeCells cells).irqEn = s.irqEn := rfl
@[simp] theorem State.writeCells_format (cells : List Host.Cell) : (s.writeCells cells).format = s.format := rfl
@[simp] theorem State.writeCells_srcDim (cells : List Host.Cell) : (s.writeCells cells).srcDim = s.srcDim := rfl
@[simp] theorem State.writeCells_dstDim (cells : List Host.Cell) : (s.writeCells cells).dstDim = s.dstDim := rfl
@[simp] theorem State.writeCells_srcBase (cells : List Host.Cell) : (s.writeCells cells).srcBase = s.srcBase := rfl
@[simp] theorem State.writeCells_srcSize (cells : List Host.Cell) : (s.writeCells cells).srcSize = s.srcSize := rfl
@[simp] theorem State.writeCells_dstBase (cells : List Host.Cell) : (s.writeCells cells).dstBase = s.dstBase := rfl
@[simp] theorem State.writeCells_dstSize (cells : List Host.Cell) : (s.writeCells cells).dstSize = s.dstSize := rfl
@[simp] theorem State.writeCells_scrBase (cells : List Host.Cell) : (s.writeCells cells).scrBase = s.scrBase := rfl
@[simp] theorem State.writeCells_scrSize (cells : List Host.Cell) : (s.writeCells cells).scrSize = s.scrSize := rfl
@[simp] theorem State.writeCells_lNplanes (cells : List Host.Cell) : (s.writeCells cells).lNplanes = s.lNplanes := rfl
@[simp] theorem State.writeCells_lTotal (cells : List Host.Cell) : (s.writeCells cells).lTotal = s.lTotal := rfl
@[simp] theorem State.writeCells_lp0 (cells : List Host.Cell) : (s.writeCells cells).lp0 = s.lp0 := rfl
@[simp] theorem State.writeCells_lp1 (cells : List Host.Cell) : (s.writeCells cells).lp1 = s.lp1 := rfl
@[simp] theorem State.writeCells_lp2 (cells : List Host.Cell) : (s.writeCells cells).lp2 = s.lp2 := rfl
@[simp] theorem State.writeCells_loc (cells : List Host.Cell) : (s.writeCells cells).loc = s.loc := rfl
@[simp] theorem State.writeCells_curCmd (cells : List Host.Cell) : (s.writeCells cells).curCmd = s.curCmd := rfl
@[simp] theorem State.writeCells_mem (cells : List Host.Cell) : (s.writeCells cells).mem = s.mem.writeAll cells := rfl
@[simp] theorem State.writeCells_hazard (cells : List Host.Cell) : (s.writeCells cells).hazard = s.hazard := rfl
@[simp] theorem State.writeCells_draws (cells : List Host.Cell) : (s.writeCells cells).draws = s.draws := rfl
@[simp] theorem State.writeCells_hostData (cells : List Host.Cell) : (s.writeCells cells).hostData = s.hostData := rfl
@[simp] theorem State.writeCells_params (cells : List Host.Cell) : (s.writeCells cells).params = s.params := rfl
@[simp] theorem State.writeCells_schedule (cells : List Host.Cell) : (s.writeCells cells).schedule = s.schedule := rfl

@[simp] theorem State.drawn_status : (s.drawn).status = s.status := rfl
@[simp] theorem State.drawn_irqEn : (s.drawn).irqEn = s.irqEn := rfl
@[simp] theorem State.drawn_format : (s.drawn).format = s.format := rfl
@[simp] theorem State.drawn_srcDim : (s.drawn).srcDim = s.srcDim := rfl
@[simp] theorem State.drawn_dstDim : (s.drawn).dstDim = s.dstDim := rfl
@[simp] theorem State.drawn_srcBase : (s.drawn).srcBase = s.srcBase := rfl
@[simp] theorem State.drawn_srcSize : (s.drawn).srcSize = s.srcSize := rfl
@[simp] theorem State.drawn_dstBase : (s.drawn).dstBase = s.dstBase := rfl
@[simp] theorem State.drawn_dstSize : (s.drawn).dstSize = s.dstSize := rfl
@[simp] theorem State.drawn_scrBase : (s.drawn).scrBase = s.scrBase := rfl
@[simp] theorem State.drawn_scrSize : (s.drawn).scrSize = s.scrSize := rfl
@[simp] theorem State.drawn_lNplanes : (s.drawn).lNplanes = s.lNplanes := rfl
@[simp] theorem State.drawn_lTotal : (s.drawn).lTotal = s.lTotal := rfl
@[simp] theorem State.drawn_lp0 : (s.drawn).lp0 = s.lp0 := rfl
@[simp] theorem State.drawn_lp1 : (s.drawn).lp1 = s.lp1 := rfl
@[simp] theorem State.drawn_lp2 : (s.drawn).lp2 = s.lp2 := rfl
@[simp] theorem State.drawn_loc : (s.drawn).loc = s.loc := rfl
@[simp] theorem State.drawn_curCmd : (s.drawn).curCmd = s.curCmd := rfl
@[simp] theorem State.drawn_mem : (s.drawn).mem = s.mem := rfl
@[simp] theorem State.drawn_hazard : (s.drawn).hazard = s.hazard := rfl
@[simp] theorem State.drawn_draws : (s.drawn).draws = s.draws + 1 := rfl
@[simp] theorem State.drawn_hostData : (s.drawn).hostData = s.hostData := rfl
@[simp] theorem State.drawn_params : (s.drawn).params = s.params := rfl
@[simp] theorem State.drawn_schedule : (s.drawn).schedule = s.schedule := rfl

@[simp] theorem State.acceptWord_status (w : Word) : (s.acceptWord w).status = s.status.accept (w.extractLsb' 0 4) := rfl
@[simp] theorem State.acceptWord_irqEn (w : Word) : (s.acceptWord w).irqEn = s.irqEn := rfl
@[simp] theorem State.acceptWord_format (w : Word) : (s.acceptWord w).format = s.format := rfl
@[simp] theorem State.acceptWord_srcDim (w : Word) : (s.acceptWord w).srcDim = s.srcDim := rfl
@[simp] theorem State.acceptWord_dstDim (w : Word) : (s.acceptWord w).dstDim = s.dstDim := rfl
@[simp] theorem State.acceptWord_srcBase (w : Word) : (s.acceptWord w).srcBase = s.srcBase := rfl
@[simp] theorem State.acceptWord_srcSize (w : Word) : (s.acceptWord w).srcSize = s.srcSize := rfl
@[simp] theorem State.acceptWord_dstBase (w : Word) : (s.acceptWord w).dstBase = s.dstBase := rfl
@[simp] theorem State.acceptWord_dstSize (w : Word) : (s.acceptWord w).dstSize = s.dstSize := rfl
@[simp] theorem State.acceptWord_scrBase (w : Word) : (s.acceptWord w).scrBase = s.scrBase := rfl
@[simp] theorem State.acceptWord_scrSize (w : Word) : (s.acceptWord w).scrSize = s.scrSize := rfl
@[simp] theorem State.acceptWord_lNplanes (w : Word) : (s.acceptWord w).lNplanes = s.lNplanes := rfl
@[simp] theorem State.acceptWord_lTotal (w : Word) : (s.acceptWord w).lTotal = s.lTotal := rfl
@[simp] theorem State.acceptWord_lp0 (w : Word) : (s.acceptWord w).lp0 = s.lp0 := rfl
@[simp] theorem State.acceptWord_lp1 (w : Word) : (s.acceptWord w).lp1 = s.lp1 := rfl
@[simp] theorem State.acceptWord_lp2 (w : Word) : (s.acceptWord w).lp2 = s.lp2 := rfl
@[simp] theorem State.acceptWord_loc (w : Word) : (s.acceptWord w).loc = s.loc := rfl
@[simp] theorem State.acceptWord_curCmd (w : Word) : (s.acceptWord w).curCmd = some w := rfl
@[simp] theorem State.acceptWord_mem (w : Word) : (s.acceptWord w).mem = s.mem := rfl
@[simp] theorem State.acceptWord_hazard (w : Word) : (s.acceptWord w).hazard = false := rfl
@[simp] theorem State.acceptWord_draws (w : Word) : (s.acceptWord w).draws = s.draws := rfl
@[simp] theorem State.acceptWord_hostData (w : Word) : (s.acceptWord w).hostData = s.hostData := rfl
@[simp] theorem State.acceptWord_params (w : Word) : (s.acceptWord w).params = s.params := rfl
@[simp] theorem State.acceptWord_schedule (w : Word) : (s.acceptWord w).schedule = s.schedule := rfl

@[simp] theorem State.succeed_status (isRun : Bool) : (s.succeed isRun).status = s.status.succeed isRun := rfl
@[simp] theorem State.succeed_irqEn (isRun : Bool) : (s.succeed isRun).irqEn = s.irqEn := rfl
@[simp] theorem State.succeed_format (isRun : Bool) : (s.succeed isRun).format = s.format := rfl
@[simp] theorem State.succeed_srcDim (isRun : Bool) : (s.succeed isRun).srcDim = s.srcDim := rfl
@[simp] theorem State.succeed_dstDim (isRun : Bool) : (s.succeed isRun).dstDim = s.dstDim := rfl
@[simp] theorem State.succeed_srcBase (isRun : Bool) : (s.succeed isRun).srcBase = s.srcBase := rfl
@[simp] theorem State.succeed_srcSize (isRun : Bool) : (s.succeed isRun).srcSize = s.srcSize := rfl
@[simp] theorem State.succeed_dstBase (isRun : Bool) : (s.succeed isRun).dstBase = s.dstBase := rfl
@[simp] theorem State.succeed_dstSize (isRun : Bool) : (s.succeed isRun).dstSize = s.dstSize := rfl
@[simp] theorem State.succeed_scrBase (isRun : Bool) : (s.succeed isRun).scrBase = s.scrBase := rfl
@[simp] theorem State.succeed_scrSize (isRun : Bool) : (s.succeed isRun).scrSize = s.scrSize := rfl
@[simp] theorem State.succeed_lNplanes (isRun : Bool) : (s.succeed isRun).lNplanes = s.lNplanes := rfl
@[simp] theorem State.succeed_lTotal (isRun : Bool) : (s.succeed isRun).lTotal = s.lTotal := rfl
@[simp] theorem State.succeed_lp0 (isRun : Bool) : (s.succeed isRun).lp0 = s.lp0 := rfl
@[simp] theorem State.succeed_lp1 (isRun : Bool) : (s.succeed isRun).lp1 = s.lp1 := rfl
@[simp] theorem State.succeed_lp2 (isRun : Bool) : (s.succeed isRun).lp2 = s.lp2 := rfl
@[simp] theorem State.succeed_loc (isRun : Bool) : (s.succeed isRun).loc = s.loc := rfl
@[simp] theorem State.succeed_curCmd (isRun : Bool) : (s.succeed isRun).curCmd = none := rfl
@[simp] theorem State.succeed_mem (isRun : Bool) : (s.succeed isRun).mem = s.mem := rfl
@[simp] theorem State.succeed_hazard (isRun : Bool) : (s.succeed isRun).hazard = false := rfl
@[simp] theorem State.succeed_draws (isRun : Bool) : (s.succeed isRun).draws = s.draws := rfl
@[simp] theorem State.succeed_hostData (isRun : Bool) : (s.succeed isRun).hostData = s.hostData := rfl
@[simp] theorem State.succeed_params (isRun : Bool) : (s.succeed isRun).params = s.params := rfl
@[simp] theorem State.succeed_schedule (isRun : Bool) : (s.succeed isRun).schedule = s.schedule := rfl

@[simp] theorem State.fail_status (code : ErrorCode) : (s.fail code).status = s.status.fail code := rfl
@[simp] theorem State.fail_irqEn (code : ErrorCode) : (s.fail code).irqEn = s.irqEn := rfl
@[simp] theorem State.fail_format (code : ErrorCode) : (s.fail code).format = s.format := rfl
@[simp] theorem State.fail_srcDim (code : ErrorCode) : (s.fail code).srcDim = s.srcDim := rfl
@[simp] theorem State.fail_dstDim (code : ErrorCode) : (s.fail code).dstDim = s.dstDim := rfl
@[simp] theorem State.fail_srcBase (code : ErrorCode) : (s.fail code).srcBase = s.srcBase := rfl
@[simp] theorem State.fail_srcSize (code : ErrorCode) : (s.fail code).srcSize = s.srcSize := rfl
@[simp] theorem State.fail_dstBase (code : ErrorCode) : (s.fail code).dstBase = s.dstBase := rfl
@[simp] theorem State.fail_dstSize (code : ErrorCode) : (s.fail code).dstSize = s.dstSize := rfl
@[simp] theorem State.fail_scrBase (code : ErrorCode) : (s.fail code).scrBase = s.scrBase := rfl
@[simp] theorem State.fail_scrSize (code : ErrorCode) : (s.fail code).scrSize = s.scrSize := rfl
@[simp] theorem State.fail_lNplanes (code : ErrorCode) : (s.fail code).lNplanes = s.lNplanes := rfl
@[simp] theorem State.fail_lTotal (code : ErrorCode) : (s.fail code).lTotal = s.lTotal := rfl
@[simp] theorem State.fail_lp0 (code : ErrorCode) : (s.fail code).lp0 = s.lp0 := rfl
@[simp] theorem State.fail_lp1 (code : ErrorCode) : (s.fail code).lp1 = s.lp1 := rfl
@[simp] theorem State.fail_lp2 (code : ErrorCode) : (s.fail code).lp2 = s.lp2 := rfl
@[simp] theorem State.fail_loc (code : ErrorCode) : (s.fail code).loc = s.loc := rfl
@[simp] theorem State.fail_curCmd (code : ErrorCode) : (s.fail code).curCmd = none := rfl
@[simp] theorem State.fail_mem (code : ErrorCode) : (s.fail code).mem = s.mem := rfl
@[simp] theorem State.fail_hazard (code : ErrorCode) : (s.fail code).hazard = false := rfl
@[simp] theorem State.fail_draws (code : ErrorCode) : (s.fail code).draws = s.draws := rfl
@[simp] theorem State.fail_hostData (code : ErrorCode) : (s.fail code).hostData = s.hostData := rfl
@[simp] theorem State.fail_params (code : ErrorCode) : (s.fail code).params = s.params := rfl
@[simp] theorem State.fail_schedule (code : ErrorCode) : (s.fail code).schedule = s.schedule := rfl

@[simp] theorem State.recordMethod_status (m : Method) : (s.recordMethod m).status = { s.status with effm := m.code } := rfl
@[simp] theorem State.recordMethod_irqEn (m : Method) : (s.recordMethod m).irqEn = s.irqEn := rfl
@[simp] theorem State.recordMethod_format (m : Method) : (s.recordMethod m).format = s.format := rfl
@[simp] theorem State.recordMethod_srcDim (m : Method) : (s.recordMethod m).srcDim = s.srcDim := rfl
@[simp] theorem State.recordMethod_dstDim (m : Method) : (s.recordMethod m).dstDim = s.dstDim := rfl
@[simp] theorem State.recordMethod_srcBase (m : Method) : (s.recordMethod m).srcBase = s.srcBase := rfl
@[simp] theorem State.recordMethod_srcSize (m : Method) : (s.recordMethod m).srcSize = s.srcSize := rfl
@[simp] theorem State.recordMethod_dstBase (m : Method) : (s.recordMethod m).dstBase = s.dstBase := rfl
@[simp] theorem State.recordMethod_dstSize (m : Method) : (s.recordMethod m).dstSize = s.dstSize := rfl
@[simp] theorem State.recordMethod_scrBase (m : Method) : (s.recordMethod m).scrBase = s.scrBase := rfl
@[simp] theorem State.recordMethod_scrSize (m : Method) : (s.recordMethod m).scrSize = s.scrSize := rfl
@[simp] theorem State.recordMethod_lNplanes (m : Method) : (s.recordMethod m).lNplanes = s.lNplanes := rfl
@[simp] theorem State.recordMethod_lTotal (m : Method) : (s.recordMethod m).lTotal = s.lTotal := rfl
@[simp] theorem State.recordMethod_lp0 (m : Method) : (s.recordMethod m).lp0 = s.lp0 := rfl
@[simp] theorem State.recordMethod_lp1 (m : Method) : (s.recordMethod m).lp1 = s.lp1 := rfl
@[simp] theorem State.recordMethod_lp2 (m : Method) : (s.recordMethod m).lp2 = s.lp2 := rfl
@[simp] theorem State.recordMethod_loc (m : Method) : (s.recordMethod m).loc = s.loc := rfl
@[simp] theorem State.recordMethod_curCmd (m : Method) : (s.recordMethod m).curCmd = s.curCmd := rfl
@[simp] theorem State.recordMethod_mem (m : Method) : (s.recordMethod m).mem = s.mem := rfl
@[simp] theorem State.recordMethod_hazard (m : Method) : (s.recordMethod m).hazard = s.hazard := rfl
@[simp] theorem State.recordMethod_draws (m : Method) : (s.recordMethod m).draws = s.draws := rfl
@[simp] theorem State.recordMethod_hostData (m : Method) : (s.recordMethod m).hostData = s.hostData := rfl
@[simp] theorem State.recordMethod_params (m : Method) : (s.recordMethod m).params = s.params := rfl
@[simp] theorem State.recordMethod_schedule (m : Method) : (s.recordMethod m).schedule = s.schedule := rfl

@[simp] theorem State.ignoreWrite_status : (s.ignoreWrite).status = { s.status with wign := true } := rfl
@[simp] theorem State.ignoreWrite_irqEn : (s.ignoreWrite).irqEn = s.irqEn := rfl
@[simp] theorem State.ignoreWrite_format : (s.ignoreWrite).format = s.format := rfl
@[simp] theorem State.ignoreWrite_srcDim : (s.ignoreWrite).srcDim = s.srcDim := rfl
@[simp] theorem State.ignoreWrite_dstDim : (s.ignoreWrite).dstDim = s.dstDim := rfl
@[simp] theorem State.ignoreWrite_srcBase : (s.ignoreWrite).srcBase = s.srcBase := rfl
@[simp] theorem State.ignoreWrite_srcSize : (s.ignoreWrite).srcSize = s.srcSize := rfl
@[simp] theorem State.ignoreWrite_dstBase : (s.ignoreWrite).dstBase = s.dstBase := rfl
@[simp] theorem State.ignoreWrite_dstSize : (s.ignoreWrite).dstSize = s.dstSize := rfl
@[simp] theorem State.ignoreWrite_scrBase : (s.ignoreWrite).scrBase = s.scrBase := rfl
@[simp] theorem State.ignoreWrite_scrSize : (s.ignoreWrite).scrSize = s.scrSize := rfl
@[simp] theorem State.ignoreWrite_lNplanes : (s.ignoreWrite).lNplanes = s.lNplanes := rfl
@[simp] theorem State.ignoreWrite_lTotal : (s.ignoreWrite).lTotal = s.lTotal := rfl
@[simp] theorem State.ignoreWrite_lp0 : (s.ignoreWrite).lp0 = s.lp0 := rfl
@[simp] theorem State.ignoreWrite_lp1 : (s.ignoreWrite).lp1 = s.lp1 := rfl
@[simp] theorem State.ignoreWrite_lp2 : (s.ignoreWrite).lp2 = s.lp2 := rfl
@[simp] theorem State.ignoreWrite_loc : (s.ignoreWrite).loc = s.loc := rfl
@[simp] theorem State.ignoreWrite_curCmd : (s.ignoreWrite).curCmd = s.curCmd := rfl
@[simp] theorem State.ignoreWrite_mem : (s.ignoreWrite).mem = s.mem := rfl
@[simp] theorem State.ignoreWrite_hazard : (s.ignoreWrite).hazard = s.hazard := rfl
@[simp] theorem State.ignoreWrite_draws : (s.ignoreWrite).draws = s.draws := rfl
@[simp] theorem State.ignoreWrite_hostData : (s.ignoreWrite).hostData = s.hostData := rfl
@[simp] theorem State.ignoreWrite_params : (s.ignoreWrite).params = s.params := rfl
@[simp] theorem State.ignoreWrite_schedule : (s.ignoreWrite).schedule = s.schedule := rfl

@[simp] theorem State.publishLayout_status (l : Layout) : (s.publishLayout l).status = s.status := rfl
@[simp] theorem State.publishLayout_irqEn (l : Layout) : (s.publishLayout l).irqEn = s.irqEn := rfl
@[simp] theorem State.publishLayout_format (l : Layout) : (s.publishLayout l).format = s.format := rfl
@[simp] theorem State.publishLayout_srcDim (l : Layout) : (s.publishLayout l).srcDim = s.srcDim := rfl
@[simp] theorem State.publishLayout_dstDim (l : Layout) : (s.publishLayout l).dstDim = s.dstDim := rfl
@[simp] theorem State.publishLayout_srcBase (l : Layout) : (s.publishLayout l).srcBase = s.srcBase := rfl
@[simp] theorem State.publishLayout_srcSize (l : Layout) : (s.publishLayout l).srcSize = s.srcSize := rfl
@[simp] theorem State.publishLayout_dstBase (l : Layout) : (s.publishLayout l).dstBase = s.dstBase := rfl
@[simp] theorem State.publishLayout_dstSize (l : Layout) : (s.publishLayout l).dstSize = s.dstSize := rfl
@[simp] theorem State.publishLayout_scrBase (l : Layout) : (s.publishLayout l).scrBase = s.scrBase := rfl
@[simp] theorem State.publishLayout_scrSize (l : Layout) : (s.publishLayout l).scrSize = s.scrSize := rfl
@[simp] theorem State.publishLayout_lNplanes (l : Layout) : (s.publishLayout l).lNplanes = BitVec.ofNat 2 l.length := rfl
@[simp] theorem State.publishLayout_lTotal (l : Layout) : (s.publishLayout l).lTotal = BitVec.ofNat 32 l.total := rfl
@[simp] theorem State.publishLayout_lp0 (l : Layout) : (s.publishLayout l).lp0 = PlaneRegs.ofPlane l[0]? := rfl
@[simp] theorem State.publishLayout_lp1 (l : Layout) : (s.publishLayout l).lp1 = PlaneRegs.ofPlane l[1]? := rfl
@[simp] theorem State.publishLayout_lp2 (l : Layout) : (s.publishLayout l).lp2 = PlaneRegs.ofPlane l[2]? := rfl
@[simp] theorem State.publishLayout_loc (l : Layout) : (s.publishLayout l).loc = s.loc := rfl
@[simp] theorem State.publishLayout_curCmd (l : Layout) : (s.publishLayout l).curCmd = s.curCmd := rfl
@[simp] theorem State.publishLayout_mem (l : Layout) : (s.publishLayout l).mem = s.mem := rfl
@[simp] theorem State.publishLayout_hazard (l : Layout) : (s.publishLayout l).hazard = s.hazard := rfl
@[simp] theorem State.publishLayout_draws (l : Layout) : (s.publishLayout l).draws = s.draws := rfl
@[simp] theorem State.publishLayout_hostData (l : Layout) : (s.publishLayout l).hostData = s.hostData := rfl
@[simp] theorem State.publishLayout_params (l : Layout) : (s.publishLayout l).params = s.params := rfl
@[simp] theorem State.publishLayout_schedule (l : Layout) : (s.publishLayout l).schedule = s.schedule := rfl

@[simp] theorem State.publishLocation_status (e : EffGeom) : (s.publishLocation e).status = s.status := rfl
@[simp] theorem State.publishLocation_irqEn (e : EffGeom) : (s.publishLocation e).irqEn = s.irqEn := rfl
@[simp] theorem State.publishLocation_format (e : EffGeom) : (s.publishLocation e).format = s.format := rfl
@[simp] theorem State.publishLocation_srcDim (e : EffGeom) : (s.publishLocation e).srcDim = s.srcDim := rfl
@[simp] theorem State.publishLocation_dstDim (e : EffGeom) : (s.publishLocation e).dstDim = s.dstDim := rfl
@[simp] theorem State.publishLocation_srcBase (e : EffGeom) : (s.publishLocation e).srcBase = s.srcBase := rfl
@[simp] theorem State.publishLocation_srcSize (e : EffGeom) : (s.publishLocation e).srcSize = s.srcSize := rfl
@[simp] theorem State.publishLocation_dstBase (e : EffGeom) : (s.publishLocation e).dstBase = s.dstBase := rfl
@[simp] theorem State.publishLocation_dstSize (e : EffGeom) : (s.publishLocation e).dstSize = s.dstSize := rfl
@[simp] theorem State.publishLocation_scrBase (e : EffGeom) : (s.publishLocation e).scrBase = s.scrBase := rfl
@[simp] theorem State.publishLocation_scrSize (e : EffGeom) : (s.publishLocation e).scrSize = s.scrSize := rfl
@[simp] theorem State.publishLocation_lNplanes (e : EffGeom) : (s.publishLocation e).lNplanes = s.lNplanes := rfl
@[simp] theorem State.publishLocation_lTotal (e : EffGeom) : (s.publishLocation e).lTotal = s.lTotal := rfl
@[simp] theorem State.publishLocation_lp0 (e : EffGeom) : (s.publishLocation e).lp0 = s.lp0 := rfl
@[simp] theorem State.publishLocation_lp1 (e : EffGeom) : (s.publishLocation e).lp1 = s.lp1 := rfl
@[simp] theorem State.publishLocation_lp2 (e : EffGeom) : (s.publishLocation e).lp2 = s.lp2 := rfl
@[simp] theorem State.publishLocation_loc (e : EffGeom) : (s.publishLocation e).loc = ⟨BitVec.ofNat 32 e.ptr, BitVec.ofNat 32 e.w, BitVec.ofNat 32 e.h, BitVec.ofNat 32 e.stride⟩ := rfl
@[simp] theorem State.publishLocation_curCmd (e : EffGeom) : (s.publishLocation e).curCmd = s.curCmd := rfl
@[simp] theorem State.publishLocation_mem (e : EffGeom) : (s.publishLocation e).mem = s.mem := rfl
@[simp] theorem State.publishLocation_hazard (e : EffGeom) : (s.publishLocation e).hazard = s.hazard := rfl
@[simp] theorem State.publishLocation_draws (e : EffGeom) : (s.publishLocation e).draws = s.draws := rfl
@[simp] theorem State.publishLocation_hostData (e : EffGeom) : (s.publishLocation e).hostData = s.hostData := rfl
@[simp] theorem State.publishLocation_params (e : EffGeom) : (s.publishLocation e).params = s.params := rfl
@[simp] theorem State.publishLocation_schedule (e : EffGeom) : (s.publishLocation e).schedule = s.schedule := rfl

@[simp] theorem State.answer_status (v : Word) : (s.answer v).status = s.status := rfl
@[simp] theorem State.answer_irqEn (v : Word) : (s.answer v).irqEn = s.irqEn := rfl
@[simp] theorem State.answer_format (v : Word) : (s.answer v).format = s.format := rfl
@[simp] theorem State.answer_srcDim (v : Word) : (s.answer v).srcDim = s.srcDim := rfl
@[simp] theorem State.answer_dstDim (v : Word) : (s.answer v).dstDim = s.dstDim := rfl
@[simp] theorem State.answer_srcBase (v : Word) : (s.answer v).srcBase = s.srcBase := rfl
@[simp] theorem State.answer_srcSize (v : Word) : (s.answer v).srcSize = s.srcSize := rfl
@[simp] theorem State.answer_dstBase (v : Word) : (s.answer v).dstBase = s.dstBase := rfl
@[simp] theorem State.answer_dstSize (v : Word) : (s.answer v).dstSize = s.dstSize := rfl
@[simp] theorem State.answer_scrBase (v : Word) : (s.answer v).scrBase = s.scrBase := rfl
@[simp] theorem State.answer_scrSize (v : Word) : (s.answer v).scrSize = s.scrSize := rfl
@[simp] theorem State.answer_lNplanes (v : Word) : (s.answer v).lNplanes = s.lNplanes := rfl
@[simp] theorem State.answer_lTotal (v : Word) : (s.answer v).lTotal = s.lTotal := rfl
@[simp] theorem State.answer_lp0 (v : Word) : (s.answer v).lp0 = s.lp0 := rfl
@[simp] theorem State.answer_lp1 (v : Word) : (s.answer v).lp1 = s.lp1 := rfl
@[simp] theorem State.answer_lp2 (v : Word) : (s.answer v).lp2 = s.lp2 := rfl
@[simp] theorem State.answer_loc (v : Word) : (s.answer v).loc = s.loc := rfl
@[simp] theorem State.answer_curCmd (v : Word) : (s.answer v).curCmd = s.curCmd := rfl
@[simp] theorem State.answer_mem (v : Word) : (s.answer v).mem = s.mem := rfl
@[simp] theorem State.answer_hazard (v : Word) : (s.answer v).hazard = s.hazard := rfl
@[simp] theorem State.answer_draws (v : Word) : (s.answer v).draws = s.draws := rfl
@[simp] theorem State.answer_hostData (v : Word) : (s.answer v).hostData = v := rfl
@[simp] theorem State.answer_params (v : Word) : (s.answer v).params = s.params := rfl
@[simp] theorem State.answer_schedule (v : Word) : (s.answer v).schedule = s.schedule := rfl

variable (st : Status)

@[simp] theorem Status.accept_busy (op : BitVec 4) : (st.accept op).busy = true := rfl
@[simp] theorem Status.accept_done (op : BitVec 4) : (st.accept op).done = false := rfl
@[simp] theorem Status.accept_err (op : BitVec 4) : (st.accept op).err = false := rfl
@[simp] theorem Status.accept_wign (op : BitVec 4) : (st.accept op).wign = st.wign := rfl
@[simp] theorem Status.accept_errcode (op : BitVec 4) : (st.accept op).errcode = 0#4 := rfl
@[simp] theorem Status.accept_seq (op : BitVec 4) : (st.accept op).seq = if op = opRun then seqField0 else st.seq := rfl
@[simp] theorem Status.accept_effm (op : BitVec 4) : (st.accept op).effm = st.effm := rfl
@[simp] theorem Status.accept_lastOp (op : BitVec 4) : (st.accept op).lastOp = op := rfl

@[simp] theorem Status.succeed_busy (isRun : Bool) : (st.succeed isRun).busy = false := rfl
@[simp] theorem Status.succeed_done (isRun : Bool) : (st.succeed isRun).done = true := rfl
@[simp] theorem Status.succeed_err (isRun : Bool) : (st.succeed isRun).err = st.err := rfl
@[simp] theorem Status.succeed_wign (isRun : Bool) : (st.succeed isRun).wign = st.wign := rfl
@[simp] theorem Status.succeed_errcode (isRun : Bool) : (st.succeed isRun).errcode = st.errcode := rfl
@[simp] theorem Status.succeed_seq (isRun : Bool) : (st.succeed isRun).seq = if isRun then seqDone else seqIdle := rfl
@[simp] theorem Status.succeed_effm (isRun : Bool) : (st.succeed isRun).effm = st.effm := rfl
@[simp] theorem Status.succeed_lastOp (isRun : Bool) : (st.succeed isRun).lastOp = st.lastOp := rfl

@[simp] theorem Status.fail_busy (code : ErrorCode) : (st.fail code).busy = false := rfl
@[simp] theorem Status.fail_done (code : ErrorCode) : (st.fail code).done = false := rfl
@[simp] theorem Status.fail_err (code : ErrorCode) : (st.fail code).err = true := rfl
@[simp] theorem Status.fail_wign (code : ErrorCode) : (st.fail code).wign = st.wign := rfl
@[simp] theorem Status.fail_errcode (code : ErrorCode) : (st.fail code).errcode = code.bits := rfl
@[simp] theorem Status.fail_seq (code : ErrorCode) : (st.fail code).seq = seqIdle := rfl
@[simp] theorem Status.fail_effm (code : ErrorCode) : (st.fail code).effm = st.effm := rfl
@[simp] theorem Status.fail_lastOp (code : ErrorCode) : (st.fail code).lastOp = st.lastOp := rfl

@[simp] theorem Status.cleared_busy : (st.cleared).busy = st.busy := rfl
@[simp] theorem Status.cleared_done : (st.cleared).done = false := rfl
@[simp] theorem Status.cleared_err : (st.cleared).err = false := rfl
@[simp] theorem Status.cleared_wign : (st.cleared).wign = false := rfl
@[simp] theorem Status.cleared_errcode : (st.cleared).errcode = 0#4 := rfl
@[simp] theorem Status.cleared_seq : (st.cleared).seq = seqIdle := rfl
@[simp] theorem Status.cleared_effm : (st.cleared).effm = st.effm := rfl
@[simp] theorem Status.cleared_lastOp : (st.cleared).lastOp = 5#4 := rfl

/-- The reset input's effect on the fields that do not take a reset constant (R350; log 12). -/
@[simp] theorem resetBlock_status : (resetBlock s).status = State.reset.status := rfl
@[simp] theorem resetBlock_irqEn : (resetBlock s).irqEn = State.reset.irqEn := rfl
@[simp] theorem resetBlock_format : (resetBlock s).format = State.reset.format := rfl
@[simp] theorem resetBlock_srcDim : (resetBlock s).srcDim = State.reset.srcDim := rfl
@[simp] theorem resetBlock_dstDim : (resetBlock s).dstDim = State.reset.dstDim := rfl
@[simp] theorem resetBlock_srcBase : (resetBlock s).srcBase = State.reset.srcBase := rfl
@[simp] theorem resetBlock_srcSize : (resetBlock s).srcSize = State.reset.srcSize := rfl
@[simp] theorem resetBlock_dstBase : (resetBlock s).dstBase = State.reset.dstBase := rfl
@[simp] theorem resetBlock_dstSize : (resetBlock s).dstSize = State.reset.dstSize := rfl
@[simp] theorem resetBlock_scrBase : (resetBlock s).scrBase = State.reset.scrBase := rfl
@[simp] theorem resetBlock_scrSize : (resetBlock s).scrSize = State.reset.scrSize := rfl
@[simp] theorem resetBlock_lNplanes : (resetBlock s).lNplanes = State.reset.lNplanes := rfl
@[simp] theorem resetBlock_lTotal : (resetBlock s).lTotal = State.reset.lTotal := rfl
@[simp] theorem resetBlock_lp0 : (resetBlock s).lp0 = State.reset.lp0 := rfl
@[simp] theorem resetBlock_lp1 : (resetBlock s).lp1 = State.reset.lp1 := rfl
@[simp] theorem resetBlock_lp2 : (resetBlock s).lp2 = State.reset.lp2 := rfl
@[simp] theorem resetBlock_loc : (resetBlock s).loc = State.reset.loc := rfl
@[simp] theorem resetBlock_curCmd : (resetBlock s).curCmd = State.reset.curCmd := rfl
@[simp] theorem resetBlock_mem : (resetBlock s).mem = s.mem.writeAll (drawnCells s.draws s.inFlightAddrs) := rfl
@[simp] theorem resetBlock_hazard : (resetBlock s).hazard = State.reset.hazard := rfl
@[simp] theorem resetBlock_draws : (resetBlock s).draws = s.draws + 1 := rfl
@[simp] theorem resetBlock_hostData : (resetBlock s).hostData = s.hostData := rfl
@[simp] theorem resetBlock_params : (resetBlock s).params = s.params := rfl
@[simp] theorem resetBlock_schedule : (resetBlock s).schedule = s.schedule := rfl

end Sys2Proof.Machine
end

