-- ==== Sys2Proof/Laws/Ops.lean ====
section
/-! SUPPORT. For each shared operation, one lemma that says once everything it can do: the checks of a command
(spec 60_exceptions.md R316), the effect of a plan (45_commands.md R279), the completion of a command, the host's
accesses, and one step. -/

namespace Sys2Proof.Machine

variable {s t : State}

/-! ### The checks -/

/-- The catalog has NFORMATS formats, so a code is looked up in it directly (R120). -/
theorem Format.ofCode_eq (c : BitVec 5) : Format.ofCode c = catalog[c.toNat]? := by
  revert c
  decide

/-- Dimensions are in range exactly when neither is 0: a 15-bit field holds at most MAX_DIM (R315). -/
theorem Dim.inRange_iff (d : Dim) : d.inRange = true ↔ d.w ≠ 0#15 ∧ d.h ≠ 0#15 := by
  have key : ∀ v w : BitVec 15, decide (1 ≤ v.toNat ∧ v.toNat ≤ 32767 ∧ 1 ≤ w.toNat ∧ w.toNat ≤ 32767) = true ↔
      v ≠ 0#15 ∧ w ≠ 0#15 := fun v w => by
    simp only [decide_eq_true_eq, ne_eq, BitVec.toNat_eq, BitVec.toNat_ofNat, Nat.zero_mod]
    omega
  exact key d.w d.h

/-- The layout a LAYOUT or LOCATE works on exists exactly when the format is in the catalog and the dimensions are not
0 (R316 steps 2 and 3). -/
theorem State.frameLayout_ok {sel : Sel} {l : Layout} :
    s.frameLayout sel = .ok l ↔ ∃ fmt, Format.ofCode s.format.fmt = some fmt ∧ (s.dimOf sel).inRange = true ∧
      l = layout fmt (s.dimOf sel).w.toNat (s.dimOf sel).h.toNat := by
  unfold State.frameLayout
  cases Format.ofCode s.format.fmt with
  | none => simp
  | some fmt =>
    by_cases h : (s.dimOf sel).inRange = true
    · simp [h, eq_comm]
    · simp [h]

/-- Both layouts exist exactly when the format is in the catalog and no dimension is 0 (R316 steps 2 and 3). -/
theorem State.bothLayouts_ok {fmt : Format} {lsrc ldst : Layout} :
    s.bothLayouts = .ok (fmt, lsrc, ldst) ↔ Format.ofCode s.format.fmt = some fmt ∧ s.srcDim.inRange = true ∧
      s.dstDim.inRange = true ∧ lsrc = layout fmt s.srcDim.w.toNat s.srcDim.h.toNat ∧
      ldst = layout fmt s.dstDim.w.toNat s.dstDim.h.toNat := by
  unfold State.bothLayouts
  cases hf : Format.ofCode s.format.fmt with
  | none => simp
  | some f =>
    simp only [Option.some.injEq]
    by_cases h : (s.srcDim.inRange && s.dstDim.inRange) = true
    · simp only [h, if_true, Except.ok.injEq, Prod.mk.injEq]
      simp only [Bool.and_eq_true] at h
      constructor
      · rintro ⟨rfl, rfl, rfl⟩
        exact ⟨rfl, h.1, h.2, rfl, rfl⟩
      · rintro ⟨rfl, -, -, rfl, rfl⟩
        exact ⟨rfl, rfl, rfl⟩
    · simp only [h, if_false, reduceCtorEq, false_iff]
      rintro ⟨-, h1, h2, -⟩
      simp [h1, h2] at h

/-- `validate` passes exactly when steps 4b to 8 of R316 hold (R279). -/
theorem State.validate_none {lsrc ldst : Layout} {work : List PlaneField} :
    s.validate lsrc ldst work = none ↔ (∀ pf ∈ work, pf.lacksSource = false) ∧ lsrc.total ≤ s.srcSize.toNat ∧
      s.dstSize.toNat = ldst.total ∧ s.srcRegion.overflows = false ∧ s.dstRegion.overflows = false ∧
      s.scrRegion.overflows = false ∧ s.scratchNeed ldst ≤ s.scrSize.toNat ∧
      s.srcRegion.intersects s.dstRegion = false ∧ s.srcRegion.intersects s.scrRegion = false ∧
      s.dstRegion.intersects s.scrRegion = false := by
  unfold State.validate
  split
  · rename_i h
    obtain ⟨pf, hp, hl⟩ := List.any_eq_true.1 h
    simp only [reduceCtorEq, false_iff]
    rintro ⟨h1, -⟩
    simp [h1 pf hp] at hl
  · rename_i h
    have h1 : ∀ pf ∈ work, pf.lacksSource = false := by simpa using h
    split
    · simp only [reduceCtorEq, false_iff]
      rintro ⟨-, h2, h3, -⟩
      omega
    · split
      · rename_i h4
        simp only [reduceCtorEq, false_iff]
        rintro ⟨-, -, -, a, b, c, -⟩
        simp [a, b, c] at h4
      · split
        · simp only [reduceCtorEq, false_iff]
          rintro ⟨-, -, -, -, -, -, h5, -⟩
          omega
        · split
          · rename_i h6
            simp only [reduceCtorEq, false_iff]
            rintro ⟨-, -, -, -, -, -, -, a, b, c⟩
            simp [a, b, c] at h6
          · rename_i h2 h4 h5 h6
            simp only [Bool.or_eq_true, not_or, Bool.not_eq_true] at h4 h6
            simp only [true_iff]
            exact ⟨h1, by omega, by omega, h4.1.1, h4.1.2, h4.2, by omega, h6.1.1, h6.1.2, h6.2⟩

/-- A plan has the command's method, the format's units and the command's work list, and its checks passed (R278). -/
theorem State.planFor_ok {method : Method} {fmt : Format} {lsrc ldst : Layout} {work : List PlaneField} {p : Plan} :
    s.planFor method fmt lsrc ldst work = .ok p ↔
      s.validate lsrc ldst work = none ∧ p = ⟨s.effMethod method, unitsOf fmt, work⟩ := by
  unfold State.planFor
  cases s.validate lsrc ldst work <;> simp [eq_comm]

/-- What a RUN's plan is, and the checks it passed (R290). -/
theorem State.runPlan_ok {method : Method} {p : Plan} :
    s.runPlan method = .ok p ↔ ∃ fmt lsrc ldst, s.bothLayouts = .ok (fmt, lsrc, ldst) ∧
      s.validate lsrc ldst (s.frameWork lsrc ldst) = none ∧
      p = ⟨s.effMethod method, unitsOf fmt, s.frameWork lsrc ldst⟩ := by
  unfold State.runPlan
  cases h : s.bothLayouts with
  | error c => simp
  | ok v =>
    obtain ⟨fmt, lsrc, ldst⟩ := v
    simp only [State.planFor_ok, Except.ok.injEq, Prod.mk.injEq]
    constructor
    · exact fun h => ⟨fmt, lsrc, ldst, ⟨rfl, rfl, rfl⟩, h⟩
    · rintro ⟨_, _, _, ⟨rfl, rfl, rfl⟩, h⟩
      exact h

/-- The work list of a SCALE_PLANE exists exactly when both layouts have a plane of the role (R183). -/
theorem State.roleWork_some {role : Role} {field : Field} {lsrc ldst : Layout} {work : List PlaneField} :
    s.roleWork role field lsrc ldst = some work ↔ ∃ gs gd, lsrc.planeOf role = some gs ∧ ldst.planeOf role = some gd ∧
      work = [s.planeField field gs gd] := by
  unfold State.roleWork
  cases lsrc.planeOf role <;> cases ldst.planeOf role <;> simp [eq_comm]

/-- What a SCALE_PLANE's plan is, and the checks it passed (R280). -/
theorem State.scalePlan_ok {method : Method} {role : Role} {field : Field} {p : Plan} :
    s.scalePlan method role field = .ok p ↔ ∃ fmt lsrc ldst work, s.bothLayouts = .ok (fmt, lsrc, ldst) ∧
      s.roleWork role field lsrc ldst = some work ∧ s.validate lsrc ldst work = none ∧
      p = ⟨s.effMethod method, unitsOf fmt, work⟩ := by
  unfold State.scalePlan
  cases h : s.bothLayouts with
  | error c => simp
  | ok v =>
    obtain ⟨fmt, lsrc, ldst⟩ := v
    cases hw : s.roleWork role field lsrc ldst with
    | none =>
      simp only [hw, reduceCtorEq, Except.ok.injEq, Prod.mk.injEq, false_iff]
      rintro ⟨_, _, _, _, ⟨rfl, rfl, rfl⟩, h1, -⟩
      simp [hw] at h1
    | some work =>
      simp only [hw, State.planFor_ok, Except.ok.injEq, Prod.mk.injEq]
      constructor
      · exact fun h => ⟨fmt, lsrc, ldst, work, ⟨rfl, rfl, rfl⟩, hw, h⟩
      · rintro ⟨_, _, _, _, ⟨rfl, rfl, rfl⟩, h1, h2⟩
        rw [hw] at h1
        cases h1
        exact h2

/-! ### The effect of a plan -/

/-- The destination cells a plan writes: the kernel's values, or free values after a hazard (R94, R99). -/
def Plan.destCells (p : Plan) (s : State) : List Host.Cell :=
  if s.hazard then drawnCells s.draws p.destAddrs else p.cells s.params s.mem

@[simp] theorem Plan.destCells_addrs (p : Plan) (s : State) : (p.destCells s).map Prod.fst = p.destAddrs := by
  unfold Plan.destCells
  split <;> simp

/-- Everything applying a plan does: destination cells, then free scratch bytes, one draw. -/
theorem State.applyPlan_eq (p : Plan) (s : State) :
    s.applyPlan p = { s with
      mem := (s.mem.writeAll (p.destCells s)).writeAll (drawnCells s.draws s.scrRegion.addrs), draws := s.draws + 1 } :=
  rfl

/-- A byte that is neither a destination sample byte nor a scratch byte is unchanged (R94). -/
theorem State.applyPlan_other {p : Plan} {a : Nat} (hd : a ∉ p.destAddrs) (hk : s.scrRegion.covers a = false) :
    (s.applyPlan p).mem.get? a = s.mem.get? a := by
  rw [State.applyPlan_eq]
  show ((s.mem.writeAll (p.destCells s)).writeAll (drawnCells s.draws s.scrRegion.addrs)).get? a = _
  rw [Memory.get?_writeAll_other, Memory.get?_writeAll_other]
  · simpa using hd
  · simp [Region.mem_addrs, hk]

/-- A scratch byte takes a free value (R92). -/
theorem State.applyPlan_scratch {p : Plan} {a : Nat} (hk : s.scrRegion.covers a = true) :
    (s.applyPlan p).mem.get? a = some (Config.drawByte s.draws a) := by
  rw [State.applyPlan_eq]
  have hm : (a, Config.drawByte s.draws a) ∈ drawnCells s.draws s.scrRegion.addrs :=
    List.mem_map.2 ⟨a, (Region.mem_addrs _ _).2 hk, rfl⟩
  have hn : ((drawnCells s.draws s.scrRegion.addrs).map Prod.fst).Nodup := by
    rw [drawnCells_addrs]
    exact List.Nodup.map (fun _ _ => Nat.add_left_cancel) List.nodup_range
  exact Memory.get?_writeAll_of_mem hn hm _

/-- Outside scratch, the destination cells are what a plan leaves (R94, R99). -/
theorem State.applyPlan_dest {p : Plan} {a : Nat} (hk : s.scrRegion.covers a = false) :
    (s.applyPlan p).mem.get? a = (s.mem.writeAll (p.destCells s)).get? a := by
  rw [State.applyPlan_eq]
  exact Memory.get?_writeAll_other (by simp [Region.mem_addrs, hk]) _

@[simp] theorem State.applyPlan_params (p : Plan) (s : State) : (s.applyPlan p).params = s.params := rfl

/-- Applying a plan keeps the canonical form of memory. -/
theorem State.applyPlan_wf (p : Plan) (h : s.mem.wf) : (s.applyPlan p).mem.wf :=
  Memory.wf_writeAll (Memory.wf_writeAll h _) _

/-! ### The completion of a command -/

/-- What a SCALE_PLANE or RUN past its decode check leaves: an error with memory untouched, or its plan applied. -/
theorem State.completeScale_cases (method : Method) (isRun : Bool) (plan : Except ErrorCode Plan) (s : State) :
    (∃ code, plan = .error code ∧
      s.completeScale method isRun plan = (s.recordMethod (s.effMethod method)).fail code) ∨
    (∃ p, plan = .ok p ∧
      s.completeScale method isRun plan = ((s.recordMethod (s.effMethod method)).applyPlan p).succeed isRun) := by
  cases plan with
  | error code => exact .inl ⟨code, rfl, rfl⟩
  | ok p => exact .inr ⟨p, rfl, rfl⟩

/-- What a SCALE_PLANE leaves: IllegalCommand when its decode check fails (R127 conditions 6 and 7), else the completion
of its plan (R280). -/
theorem scalePlane_cases (method : Method) (role : BitVec 2) (field : Field) (s : State) :
    scalePlane method role field s = s.fail .illegalCommand ∨
    ∃ r, Role.ofCode role = some r ∧ fieldAllowed s.format.interlaced field = true ∧
      scalePlane method role field s = s.completeScale method false (s.scalePlan method r field) := by
  unfold scalePlane
  cases h : Role.ofCode role with
  | none => exact .inl rfl
  | some r =>
    by_cases hf : fieldAllowed s.format.interlaced field = true
    · exact .inr ⟨r, rfl, hf, by simp [hf]⟩
    · exact .inl (by simp [hf])

/-- No completion of a SCALE_PLANE or RUN changes a parameter (R67). -/
@[simp] theorem State.completeScale_params (method : Method) (isRun : Bool) (plan : Except ErrorCode Plan) (s : State) :
    (s.completeScale method isRun plan).params = s.params := by
  cases plan <;> rfl

/-! ### The tap table -/

/-- The default table is one a block may have (R223, R224). -/
theorem tapsValid_catmullRom : TapsValid .catmullRom := by
  refine ⟨by decide, fun ph _ => ?_⟩
  simp only [tapRow, defaultTaps, Config.tapShift]
  ring

/-! ### The host -/

@[simp] theorem State.writeReg_params (r : Reg) (v : Word) (s : State) : (s.writeReg r v).params = s.params := by
  cases r <;> rfl

/-- Everything a write to CMD can do (R48, R63, R270). -/
theorem cmdWrite_cases (w : Word) (s : State) :
    (s.status.busy = true ∧ cmdWrite w s = .next s.ignoreWrite) ∨
    (s.status.busy = false ∧ w = clearWord ∧ cmdWrite w s = exec .clear s) ∨
    (s.status.busy = false ∧ w ≠ clearWord ∧ cmdWrite w s = .next (s.acceptWord w)) := by
  unfold cmdWrite
  cases s.status.busy
  · by_cases h : w = clearWord <;> simp [h]
  · simp

/-- Everything a register write can do (R37, R49, R63). -/
theorem registerWrite_cases (r : Reg) (v : Word) (s : State) :
    (r.access = .readOnly ∧ registerWrite r v s = .next s) ∨
    (r.access = .writeOnly ∧ registerWrite r v s = cmdWrite v s) ∨
    (r.access = .readWrite ∧ s.status.busy = true ∧ r ≠ .irqEn ∧ registerWrite r v s = .next s.ignoreWrite) ∨
    (r.access = .readWrite ∧ (s.status.busy = false ∨ r = .irqEn) ∧ registerWrite r v s = .next (s.writeReg r v)) := by
  unfold registerWrite
  cases h : r.access with
  | readOnly => simp
  | writeOnly => simp
  | readWrite =>
    cases s.status.busy
    · simp
    · by_cases hr : r = .irqEn <;> simp [hr]

/-- A register read changes only what the host was answered and the draw counter, or is the fault of a STATUS no run
shows (R64, R312). -/
theorem registerRead_cases (r : Reg) (s : State) :
    (r = .status ∧ neverRaised s.status.errcode = true ∧
      registerRead r s = .fault (.impossibleErrorCode s.status.errcode)) ∨
    ∃ v, registerRead r s = .next (s.answer v) ∨ registerRead r s = .next (s.answer v).drawn := by
  unfold registerRead
  split
  · split
    · rename_i h
      exact .inl ⟨rfl, h, rfl⟩
    · split
      · exact .inr ⟨_, .inr rfl⟩
      · exact .inr ⟨_, .inl rfl⟩
  · split
    · exact .inr ⟨_, .inr rfl⟩
    · exact .inr ⟨_, .inl rfl⟩

/-- An admitted access is 32 bits wide at a listed or unlisted word offset of the window (R34). -/
theorem admittedOffset_some {bytes : Nat} {offset : Int} {o : Nat} :
    admittedOffset bytes offset = some o ↔ bytes = 4 ∧ offset = (o : Int) ∧ o < Config.regWindow ∧ o % 4 = 0 := by
  unfold admittedOffset
  split
  · rename_i h
    obtain ⟨h1, h2, h3, h4⟩ := h
    simp only [Option.some.injEq]
    constructor
    · rintro rfl
      refine ⟨h1, (Int.toNat_of_nonneg h2).symm, ?_, ?_⟩ <;> omega
    · rintro ⟨-, rfl, -⟩
      simp
  · rename_i h
    simp only [reduceCtorEq, false_iff]
    rintro ⟨h1, rfl, h3, h4⟩
    exact h ⟨h1, by omega, by exact_mod_cast h3, by omega⟩

/-- What the block's turn does (R271, R314, R374). -/
theorem blockTurn_cases (s : State) :
    (s.curCmd = none ∧ blockTurn s = .next s) ∨
    (∃ w e, s.curCmd = some w ∧ decode w = .error e ∧ blockTurn s = .next (s.fail .illegalCommand)) ∨
    ∃ w i, s.curCmd = some w ∧ decode w = .ok i ∧ blockTurn s = exec i s := by
  unfold blockTurn
  cases h : s.curCmd with
  | none => exact .inl ⟨rfl, rfl⟩
  | some w =>
    cases hd : decode w with
    | error e => exact .inr (.inl ⟨w, e, rfl, hd, by simp [hd]⟩)
    | ok i => exact .inr (.inr ⟨w, i, rfl, hd, by simp [hd]⟩)

/-- What a step does: the block's turn when nothing is scheduled, else the first scheduled event. -/
theorem step_cases (s : State) :
    (s.schedule = [] ∧ step s = blockTurn s) ∨
    ∃ e rest, s.schedule = e :: rest ∧ step s = hostStep e { s with schedule := rest } := by
  unfold step nextTurn
  cases h : s.schedule with
  | nil => exact .inl ⟨rfl, rfl⟩
  | cons e rest => exact .inr ⟨e, rest, rfl, rfl⟩

/-- The offset of a bus address inside the window is its distance from REG_BASE (R34). -/
theorem busOffset_add (o : Nat) : busOffset (Config.regBase + o) = (o : Int) := by
  unfold busOffset
  push_cast
  ring

end Sys2Proof.Machine
end

