-- ==== Sys2Proof/Laws/PerInstr.lean ====
section
/-! SUPPORT. One lemma per constructor of Instr for the family EncodeRow: the word of a command carries the fixed bits of
its row of the opcode table (spec 30_encoding.md R130). -/

namespace Sys2Proof.Laws.EncodeRow

/-- The command's word is one its row covers, `word & mask = match` (R130). -/
def Statement (i : Instr) : Prop := i.row.covers (encode i) = true

theorem nop : Statement .nop := by
  unfold Statement
  decide

theorem layout (sel : Sel) : Statement (.layout sel) := by
  unfold Statement
  cases sel <;> decide

theorem locate (sel : Sel) (role : BitVec 2) (field : Field) : Statement (.locate sel role field) := by
  unfold Statement
  revert role
  cases sel <;> cases field <;> decide

theorem scalePlaneNearest (role : BitVec 2) (field : Field) : Statement (.scalePlaneNearest role field) := by
  unfold Statement
  revert role
  cases field <;> decide

theorem scalePlaneBilinear (role : BitVec 2) (field : Field) : Statement (.scalePlaneBilinear role field) := by
  unfold Statement
  revert role
  cases field <;> decide

theorem scalePlaneFourTap (role : BitVec 2) (field : Field) : Statement (.scalePlaneFourTap role field) := by
  unfold Statement
  revert role
  cases field <;> decide

theorem runNearest : Statement .runNearest := by
  unfold Statement
  decide

theorem runBilinear : Statement .runBilinear := by
  unfold Statement
  decide

theorem runFourTap : Statement .runFourTap := by
  unfold Statement
  decide

theorem clear : Statement .clear := by
  unfold Statement
  decide

end Sys2Proof.Laws.EncodeRow
end

