-- ==== Sys2Proof/Tests/Slice0.lean ====
section
/-! SUPPORT. Tests of the model against the words and values the spec writes out (95_test_vectors.md), the smoke test of
the well-formedness checks, and for every statement with hypotheses a state and operands that meet them together. -/

namespace Sys2Proof.Tests

open Sys2Proof Sys2Proof.Machine Sys2Proof.Claims

/-! ### Decoding: words written out bit by bit from 30_encoding.md R130 -/

theorem test_decode_nop : decode 0b00000000000000000000000000000000#32 = .ok .nop := by decide
theorem test_decode_layout : decode 0b00000000000000000000000100000001#32 = .ok (.layout .dst) := by decide
theorem test_decode_locate : decode 0b00000000000000000001100100000010#32 = .ok (.locate .dst 2#2 .f1) := by decide
theorem test_decode_scale_nearest :
    decode 0b00000000000000000000010000000011#32 = .ok (.scalePlaneNearest 1#2 .f0) := by decide
theorem test_decode_scale_bilinear :
    decode 0b00000000000000000001100000010011#32 = .ok (.scalePlaneBilinear 2#2 .f1) := by decide
theorem test_decode_scale_fourTap :
    decode 0b00000000000000000000000000100011#32 = .ok (.scalePlaneFourTap 0#2 .f0) := by decide
theorem test_decode_run_nearest : decode 0b00000000000000000000000000000100#32 = .ok .runNearest := by decide
theorem test_decode_run_bilinear : decode 0b00000000000000000000000000010100#32 = .ok .runBilinear := by decide
theorem test_decode_run_fourTap : decode 0b00000000000000000000000000100100#32 = .ok .runFourTap := by decide
theorem test_decode_clear : decode 0b00000000000000000000000000000101#32 = .ok .clear := by decide

/-- V60 rows 1, 3, 4, 5, 6, 7 and 9, and V70: the illegal words, each refused by its condition of R127. -/
theorem test_decode_illegal :
    decode 0x00000006#32 = .error .reservedOp ∧ decode 0x00000105#32 = .error .clearSpelling ∧
    decode 0x00000034#32 = .error .reservedMethod ∧ decode 0x00000104#32 = .error .unusedField ∧
    decode 0x80000001#32 = .error .reservedBit ∧ decode 0x00000C02#32 = .error .reservedRole ∧
    decode 0x00000010#32 = .error .unusedField ∧ decode 0x00000200#32 = .error .reservedBit := by decide

/-- The reserved ROLE is ill-formed (R127 condition 6). -/
theorem test_wf_reserved_role : (Instr.locate .src 3#2 .f0).wf = false ∧ (Instr.scalePlaneFourTap 3#2 .f0).wf = false := by
  decide

/-- FIELD = 1 is illegal on progressive content (R127 condition 7) and legal on interlaced content. -/
theorem test_legal_field_one :
    (Instr.locate .src 0#2 .f1).legal false = false ∧ (Instr.scalePlaneNearest 0#2 .f1).legal false = false ∧
    (Instr.locate .src 0#2 .f1).legal true = true := by decide

theorem test_table_word : decodeTableWord 32 0x1902 = some (.locate .dst 2#2 .f1) ∧ decodeTableWord 32 0x34 = none := by
  decide

/-! ### One step on small states -/

/-- The state a step leaves, if it leaves one. -/
def nextOf : Host.Outcome State Fault Refusal → Option State
  | .next t => some t
  | _ => none

/-- The word STATUS reads as, and the listed bytes at `a`, `a + 1`, …, after running a word. -/
def shown (s : State) (w a n : Nat) : Option (Word × List (Option Byte)) :=
  (nextOf (step (s.withFetchWord 32 w))).map fun t => (t.status.toWord, (List.range n).map fun k => t.mem.get? (a + k))

/-- Memory that lists bytes from 0x1000 on. -/
def bytesAt (bytes : List Byte) : Memory := (List.range bytes.length).zipWith (fun k v => (0x1000 + k, v)) bytes

/-- The standard buffers of 95_test_vectors.md: source at 0x1000, destination at 0x2000, scratch at 0x3000. -/
def framed (fmt : BitVec 5) (interlaced : Bool) (src dst : Dim) (srcSize dstSize scrSize : Word) (bytes : List Byte) : State :=
  { State.reset with
    format := ⟨fmt, interlaced⟩, srcDim := src, dstDim := dst, srcBase := 0x1000#32, srcSize := srcSize,
    dstBase := 0x2000#32, dstSize := dstSize, scrBase := 0x3000#32, scrSize := scrSize, mem := bytesAt bytes }

/-- GRAY8 2×1 → 4×1 with the row (0, 255) (R281, R291). -/
def gray : State := framed 23#5 false ⟨2, 1⟩ ⟨4, 1⟩ 4#32 4#32 16#32 [0, 255, 0, 0]

/-- GRAY8 4×4 → 8×1, every row (0, 255, 255, 0) (R292). -/
def gray44 : State :=
  framed 23#5 false ⟨4, 4⟩ ⟨8, 1⟩ 16#32 8#32 32#32 [0, 255, 255, 0, 0, 255, 255, 0, 0, 255, 255, 0, 0, 255, 255, 0]

/-- YUY2 2×1 → 3×1 (V55). -/
def yuy2 : State := framed 14#5 false ⟨2, 1⟩ ⟨3, 1⟩ 4#32 8#32 32#32 [0, 100, 255, 200]

/-- RGB565 2×1 → 3×1 with the words 0xF800, 0x001F (V50). -/
def rgb565 : State := framed 20#5 false ⟨2, 1⟩ ⟨3, 1⟩ 4#32 8#32 32#32 [0x00, 0xF8, 0x1F, 0x00]

/-- I420 64×64 interlaced (V1, V3). -/
def i420 : State := framed 17#5 true ⟨64, 64⟩ ⟨31, 17⟩ 0#32 0#32 0#32 []

/-- I420 8×4 → 4×2 with the U rows of R280's worked example. -/
def i420Small : State :=
  framed 17#5 false ⟨8, 4⟩ ⟨4, 2⟩ 48#32 16#32 16#32 (List.replicate 32 9 ++ [16, 17, 18, 19, 32, 33, 34, 35])

/-- R275: NOP from reset gives STATUS 0x00000002. -/
theorem test_nop : shown State.reset 0x00000000 0 0 = some (0x00000002#32, []) := by decide

/-- R276: after a RUN.BILINEAR, CLEAR makes STATUS 0x00054000. -/
theorem test_clear :
    ((nextOf (step (gray.withFetchWord 32 0x14))).bind fun t => shown t 0x00000005 0 0) = some (0x00054000#32, []) := by
  decide

/-- V1: the I420 64×64 layout. -/
theorem test_layout :
    (nextOf (step (i420.withFetchWord 32 0x00000001))).map (fun t =>
      (t.lNplanes, t.lTotal, t.lp0, t.lp1, t.lp2, t.status.toWord)) =
    some (3#2, 6144#32, ⟨64#32, 64#32, 64#32, 0#32, 4096#32, 0#2⟩, ⟨32#32, 32#32, 32#32, 4096#32, 1024#32, 1#2⟩,
      ⟨32#32, 32#32, 32#32, 5120#32, 1024#32, 2#2⟩, 0x00010002#32) := by decide

/-- V12: the I420 31×17 layout has an allocation height of 18 rows. -/
theorem test_layout_odd :
    (nextOf (step (i420.withFetchWord 32 0x00000101))).map (fun t => (t.lTotal, t.lp0.size, t.lp1.offset)) =
    some (864#32, 576#32, 576#32) := by decide

/-- V3: LOCATE src, U, f1 uses the chroma plane's own stride. -/
theorem test_locate :
    (nextOf (step (i420.withFetchWord 32 0x00001402))).map (fun t => (t.loc, t.status.toWord)) =
    some (⟨0x2020#32, 32#32, 16#32, 64#32⟩, 0x00020002#32) := by decide

/-- V13: the pointer wraps modulo 2^32. -/
theorem test_locate_wraps :
    (nextOf (step ({ i420 with format := ⟨17#5, false⟩, srcBase := 0xFFFFFFF0#32 }.withFetchWord 32 0x00000402))).map
      (fun t => t.loc.ptr) = some 0x00000FF0#32 := by decide

/-- R280: SCALE_PLANE.NEAREST U, f0 writes 16 and 18 at the destination U plane and nothing before it. -/
theorem test_scale_nearest :
    shown i420Small 0x00000403 0x2007 4 = some (0x00030002#32, [none, some 16, some 18, none]) := by decide

/-- R280, V60 row 16: a packed format has no U plane. -/
theorem test_scale_role : shown gray 0x00000403 0x2000 1 = some (0x00030804#32, [none]) := by decide

/-- R281, V20: SCALE_PLANE.BILINEAR writes (0, 128, 255, 255). -/
theorem test_scale_bilinear :
    shown gray 0x00000013 0x2000 4 = some (0x00034002#32, [some 0, some 128, some 255, some 255]) := by decide

/-- V60 row 8: FIELD = 1 on progressive content is illegal. -/
theorem test_scale_field : shown gray 0x00001013 0x2000 1 = some (0x00030504#32, [none]) := by decide

/-- R282, V40: SCALE_PLANE.4TAP of a source of height 1 is downgraded. -/
theorem test_scale_fourTap :
    shown gray 0x00000023 0x2000 4 = some (0x00034002#32, [some 0, some 128, some 255, some 255]) := by decide

/-- V50: RUN.NEAREST copies RGB565 words, low byte first. -/
theorem test_run_nearest :
    shown rgb565 0x00000004 0x2000 7 =
      some (0x00043002#32, [some 0x00, some 0xF8, some 0x00, some 0xF8, some 0x1F, some 0x00, none]) := by decide

/-- V50: RUN.BILINEAR scales the RGB565 fields apart. -/
theorem test_run_bilinear :
    shown rgb565 0x00000014 0x2000 6 =
      some (0x00047002#32, [some 0x00, some 0xF8, some 0x15, some 0x50, some 0x1F, some 0x00]) := by decide

/-- V55: RUN.BILINEAR on YUY2 with an odd width leaves the padding byte 6. -/
theorem test_run_bilinear_yuy2 :
    shown yuy2 0x00000014 0x2000 8 =
      some (0x00047002#32, [some 0, some 100, some 170, some 200, some 255, some 100, none, some 200]) := by decide

/-- V31: RUN.4TAP saturates 287 to 255 and −16 to 0. -/
theorem test_run_fourTap :
    shown gray44 0x00000024 0x2000 8 =
      some (0x0004B002#32, [some 0, some 128, some 255, some 255, some 255, some 128, some 0, some 0]) := by decide

/-- V60 row 19: DST_SIZE must be exact. -/
theorem test_run_size : shown { gray with dstSize := 5#32 } 0x00000024 0x2000 1 = some (0x00044404#32, [none]) := by decide

/-! ### The host's port -/

/-- V71: RUN.BILINEAR from reset, accepted and not yet completed. -/
theorem test_accept : (nextOf (after (issue 0x14#32) State.reset)).map (fun t => t.status.toWord) = some 0x00041001#32 := by
  decide

/-- V71: an ignored write while an illegal word is in flight sets WIGN. -/
theorem test_wign :
    (nextOf (after (.regWrite 4 0x010 5#32) (State.reset.acceptWord 6#32))).map (fun t => (t.status.wign, t.format.fmt)) =
      some (true, 0#5) := by decide

/-- V72: an illegal word raises the interrupt when ERR_IE is set. -/
theorem test_irq :
    (nextOf (step ({ State.reset with irqEn := ⟨true, true⟩ }.withFetchWord 32 0x6))).map State.irq = some true := by decide

/-- V30: rows of the default tap table. -/
theorem test_taps :
    defaultTaps 1 = ⟨-2, 1024, 2, 0⟩ ∧ defaultTaps 4 = ⟨-8, 1024, 8, 0⟩ ∧ defaultTaps 64 = ⟨-72, 888, 232, -24⟩ ∧
    defaultTaps 252 = ⟨0, 9, 1023, -8⟩ := by decide

/-- V32: the 4TAP row (0, 50, 100, 150, 200), 5 → 3, whose phases 170 and 85 weigh the four samples unequally. -/
theorem test_fourTap_row :
    (List.range 3).map (fourTapAxis .catmullRom (fun k => 50 * k) 5 3 255) = [0, 83, 168] := by decide

/-- R45, R270: after a RUN, SEQ reads Done while a NOP is in flight, until the NOP completes. -/
theorem test_seq_of_nop_in_flight :
    (nextOf (after (.regRead 4 0x004) ((run .bilinear gray).acceptWord 0#32))).map (fun t => t.hostData) =
      some 0x00007001#32 := by decide

/-- V50 with SAMPLE16_BE = 1, where "the byte pairs swap": the second destination word is still 0x5015, and its bytes are
50 15. -/
theorem test_big_endian :
    (wordUnit [⟨11, 5⟩, ⟨5, 6⟩, ⟨0, 5⟩]).compose ⟨true, .catmullRom⟩ .bilinear (bytesAt [0xF8, 0x00, 0x00, 0x1F])
      ⟨⟨0x1000, 2, 1, 4⟩, ⟨0x2000, 3, 1, 8⟩⟩ 1 0 = 0x5015 ∧
    (wordUnit [⟨11, 5⟩, ⟨5, 6⟩, ⟨0, 5⟩]).cells true 0x2002 0x5015 = [(0x2002, 0x50), (0x2003, 0x15)] := by decide

/-! ### The premises of the statements are met

`witness_<Name>` shows a concrete state and operands that meet the premises of `Obligations.<Name>` together, one
conjunct per clause, at the edges of the clause's range. -/

/-- I420 2×3 → 2×3 interlaced, the source planes Y (16 bytes), U and V (8 bytes each). -/
def fields2 : State :=
  framed 17#5 true ⟨2, 3⟩ ⟨2, 3⟩ 32#32 32#32 32#32 (List.replicate 16 5 ++ List.replicate 8 6 ++ List.replicate 8 7)

/-- Interlaced GRAY8 1×1 → 1×2: field 1 of the source has no row, field 1 of the destination has one (R284). -/
def thin : State := framed 23#5 true ⟨1, 1⟩ ⟨1, 2⟩ 4#32 8#32 32#32 [1, 2, 3, 4]

/-- `gray` with RUN.BILINEAR in flight. -/
def running : State := gray.acceptWord 0x14#32

/-- `fields2` with RUN.NEAREST in flight. -/
def runningFields : State := fields2.acceptWord 0x04#32

theorem frames_gray : Frames gray .gray8 (layout .gray8 2 1) (layout .gray8 4 1) :=
  ⟨by decide, by decide, by decide, rfl, rfl⟩
theorem frames_fields2 : Frames fields2 .i420 (layout .i420 2 3) (layout .i420 2 3) :=
  ⟨by decide, by decide, by decide, rfl, rfl⟩
theorem frames_thin : Frames thin .gray8 (layout .gray8 1 1) (layout .gray8 1 2) :=
  ⟨by decide, by decide, by decide, rfl, rfl⟩

theorem buffers_gray : Buffers gray (layout .gray8 2 1) (layout .gray8 4 1) :=
  ⟨by unfold SizesFit; decide, by unfold RegionsEnd; decide, by unfold ScratchFits; decide,
   by unfold RegionsApart Apart; decide⟩
theorem buffers_fields2 : Buffers fields2 (layout .i420 2 3) (layout .i420 2 3) :=
  ⟨by unfold SizesFit; decide, by unfold RegionsEnd; decide, by unfold ScratchFits; decide,
   by unfold RegionsApart Apart; decide⟩

theorem rows_gray : SourceRows (gray.frameWork (layout .gray8 2 1) (layout .gray8 4 1)) := by
  unfold SourceRows; decide
theorem rows_fields2 : SourceRows (fields2.frameWork (layout .i420 2 3) (layout .i420 2 3)) := by
  unfold SourceRows; decide

theorem witness_DecodeFollowsOpcodeTable :
    (decode 0x00001902#32 = .ok (.locate .dst 2#2 .f1) ∧ (Instr.locate .dst 2#2 .f1).legal true = true) ∧
    ((Instr.scalePlaneFourTap 0#2 .f0).row ∈ opcodeTable ∧
      0x00001823#32 &&& (Instr.scalePlaneFourTap 0#2 .f0).row.mask = (Instr.scalePlaneFourTap 0#2 .f0).row.pattern ∧
      SideConditions (Instr.scalePlaneFourTap 0#2 .f0).row 0x00001823#32 true) := by
  unfold SideConditions; decide

/-- FIELD = 1 is illegal on progressive content and not on interlaced content (R127 condition 7). -/
theorem test_illegal_field_one : Illegal 0x1003#32 false ∧ ¬Illegal 0x1003#32 true := by
  refine ⟨?_, ?_⟩ <;> (unfold Illegal; dsimp only; decide)

/-- One word in flight per condition of R127. -/
theorem witness_IllegalWordEndsWithIllegalCommand :
    ((gray.acceptWord 0x06#32).curCmd = some 0x06#32 ∧ Illegal 0x06#32 (gray.acceptWord 0x06#32).format.interlaced) ∧
    ((gray.acceptWord 0x0F#32).curCmd = some 0x0F#32 ∧ Illegal 0x0F#32 (gray.acceptWord 0x0F#32).format.interlaced) ∧
    ((gray.acceptWord 0x80000001#32).curCmd = some 0x80000001#32 ∧ Illegal 0x80000001#32 (gray.acceptWord 0x80000001#32).format.interlaced) ∧
    ((gray.acceptWord 0x200#32).curCmd = some 0x200#32 ∧ Illegal 0x200#32 (gray.acceptWord 0x200#32).format.interlaced) ∧
    ((gray.acceptWord 0x10#32).curCmd = some 0x10#32 ∧ Illegal 0x10#32 (gray.acceptWord 0x10#32).format.interlaced) ∧
    ((gray.acceptWord 0x104#32).curCmd = some 0x104#32 ∧ Illegal 0x104#32 (gray.acceptWord 0x104#32).format.interlaced) ∧
    ((gray.acceptWord 0x105#32).curCmd = some 0x105#32 ∧ Illegal 0x105#32 (gray.acceptWord 0x105#32).format.interlaced) ∧
    ((gray.acceptWord 0x34#32).curCmd = some 0x34#32 ∧ Illegal 0x34#32 (gray.acceptWord 0x34#32).format.interlaced) ∧
    ((gray.acceptWord 0xC02#32).curCmd = some 0xC02#32 ∧ Illegal 0xC02#32 (gray.acceptWord 0xC02#32).format.interlaced) ∧
    ((gray.acceptWord 0x1003#32).curCmd = some 0x1003#32 ∧ Illegal 0x1003#32 (gray.acceptWord 0x1003#32).format.interlaced) := by
  refine ⟨⟨rfl, ?_⟩, ⟨rfl, ?_⟩, ⟨rfl, ?_⟩, ⟨rfl, ?_⟩, ⟨rfl, ?_⟩, ⟨rfl, ?_⟩, ⟨rfl, ?_⟩, ⟨rfl, ?_⟩, ⟨rfl, ?_⟩, ⟨rfl, ?_⟩⟩ <;>
    (unfold Illegal; dsimp only; decide)

theorem witness_CmdWriteIsAccepted :
    (gray.status.busy = false ∧ (0x00000004#32 : Word) ≠ 0x00000005#32) ∧ gray.status.busy = false ∧
    running.status.busy = true := by decide

theorem witness_WritesWhileBusyAreDropped : running.status.busy = true := by decide

/-- The first and the last writable offset. -/
theorem witness_ConfigurationWritesReadBack :
    gray.status.busy = false ∧ (0x00C, 0x00000003#32) ∈ writableOffsets ∧ (0x030, 0xFFFFFFFF#32) ∈ writableOffsets := by
  decide

/-- The first and the last read-only offset, and the first and the last unlisted one. -/
theorem witness_UnlistedAndReadOnlyWritesHaveNoEffect :
    (∀ o ∈ [0x000, 0x0CC, 0x034, 0x0FC], o < 256 ∧ o % 4 = 0) ∧
    (0x000 ∈ readOnlyOffsets ∧ 0x0CC ∈ readOnlyOffsets) ∧ 0x034 ∉ listedOffsets ∧ 0x0FC ∉ listedOffsets := by decide

/-- Admitted at 0 and 0xFC; not at −4, 0x100 or 2, and not at a width of 2. -/
theorem witness_OnlyAlignedWordAccessesAreAdmitted :
    (∀ p ∈ [(4, (0 : Int)), (4, 252)], p.1 = 4 ∧ 0 ≤ p.2 ∧ p.2 < 256 ∧ p.2 % 4 = 0) ∧
    ∀ p ∈ [(4, (-4 : Int)), (4, 256), (4, 2), (2, 0)], ¬(p.1 = 4 ∧ 0 ≤ p.2 ∧ p.2 < 256 ∧ p.2 % 4 = 0) := by decide

/-- A result register, STATUS of a RUN and of a NOP in flight, ID, CMD and a configuration register, all while BUSY; an
idle block; and a STATUS no run shows. -/
theorem witness_ResultReadsWhileBusyAreFree :
    ((0x040, 0#32) ∈ registerWords running ∧ 0x040 ∈ resultOffsets ∧ (0x0CC, 0#32) ∈ registerWords running ∧
      0x0CC ∈ resultOffsets ∧ running.status.busy = true) ∧
    (∀ s ∈ [running, runningFields], (0x004, s.status.toWord) ∈ registerWords s ∧ s.status.busy = true ∧
      s.runInFlight = true ∧ neverRaised s.status.errcode = false) ∧
    ((gray.acceptWord 0#32).status.busy = true ∧ (gray.acceptWord 0#32).runInFlight = false ∧
      neverRaised (gray.acceptWord 0#32).status.errcode = false) ∧
    (∀ c ∈ [(0x000, 0x56534331#32), (0x008, 0#32), (0x014, 0x00010002#32), (0x030, 16#32)],
      c ∈ registerWords running ∧ c.1 ≠ 0x004 ∧ c.1 ∉ resultOffsets) ∧
    (gray.status.busy = false ∧ neverRaised gray.status.errcode = false) ∧
    neverRaised ({ gray with status := { gray.status with errcode := 2#4 } } : State).status.errcode = true := by decide

/-- The words of the statement are those of the register map R37: every listed offset once, and no other. -/
theorem test_register_words :
    ((registerWords gray).map Prod.fst).Nodup ∧
    (∀ c ∈ registerWords gray, c.1 ∈ listedOffsets) ∧ ∀ o ∈ listedOffsets, o ∈ (registerWords gray).map Prod.fst := by
  decide

theorem witness_Sample16ByteOrder : (65535 : Nat) < 65536 ∧ (0 : Nat) < 65536 := by decide

/-- The first and the last address of the source, and of the destination and scratch, and the address after the
source. -/
theorem witness_HostAccessesToBuffersInUse :
    running.status.busy = true ∧ running.srcRegion.covers 0x1000 = true ∧ running.srcRegion.covers 0x1003 = true ∧
    running.dstRegion.covers 0x2000 = true ∧ running.scrRegion.covers 0x300F = true ∧
    (running.inBuffers 0x1004 = false ∧ running.inBuffers 0x0FFF = false) ∧
    (running.dstRegion.covers 0x1000 = false ∧ running.scrRegion.covers 0x1000 = false) ∧ gray.status.busy = false := by
  decide

theorem witness_HazardFreesTheDestination :
    ∃ p, ({ running with hazard := true } : State).curCmd = some 0x14#32 ∧ decode 0x14#32 = .ok .runBilinear ∧
      ({ running with hazard := true } : State).hazard = true ∧
      ({ running with hazard := true } : State).planOf .runBilinear = some p ∧
      0x2000 ∈ p.destAddrs ∧ running.scrRegion.covers 0x2000 = false :=
  ⟨⟨.bilinear, unitsOf .gray8, [⟨⟨0x1000, 2, 1, 4⟩, ⟨0x2000, 4, 1, 4⟩⟩]⟩, by decide⟩

theorem witness_InterruptOutput :
    gray.status.busy = false ∧ (∃ t, after (.regWrite 4 0x008 0x14#32) gray = .next t) ∧
    (∃ t, after (.regWrite 4 0x008 0x05#32) gray = .next t) ∧ (∃ t, after .reset running = .next t) ∧
    ∃ t, after (.regWrite 4 0x00C 0#32) running = .next t :=
  ⟨rfl, ⟨_, rfl⟩, ⟨_, rfl⟩, ⟨_, rfl⟩, ⟨_, rfl⟩⟩

/-- A reset of an idle block, one that cuts a RUN short, which could write 0x2000 and scratch but not 0x2004, and one that
cuts an illegal word short. -/
theorem witness_ResetInput :
    gray.curCmd = none ∧ (running.curCmd = some 0x14#32 ∧ decode 0x14#32 = .ok .runBilinear) ∧
    0x2000 ∈ running.inFlightAddrs ∧ 0x3000 ∈ running.inFlightAddrs ∧ 0x2004 ∉ running.inFlightAddrs ∧
    ((gray.acceptWord 0x34#32).curCmd = some 0x34#32 ∧ decode 0x34#32 = .error .reservedMethod) := by decide

theorem witness_LayoutPlanesFillTheBuffer :
    (1 : Nat) ≤ 1 ∧ (layout .i420 1 1).length = 3 ∧ (layout .yuy2 1 1).length = 1 := by decide

theorem witness_LayoutValuesFitRegisters : (1 : Nat) ≤ 32767 ∧ (layout .rgba 32767 32767).length = 1 := by decide

theorem witness_ChromaStridesAgree : (1 : Nat) ≤ 1 ∧ (1 : Nat) ≤ 32767 := by decide

theorem witness_LayoutPublishesTheLayout :
    (Format.ofCode gray.format.fmt = some .gray8 ∧ (gray.dimOf .src).w ≠ 0#15 ∧ (gray.dimOf .src).h ≠ 0#15) ∧
    Format.ofCode fields2.format.fmt = some .i420 ∧ (fields2.dimOf .dst).w ≠ 0#15 ∧ (fields2.dimOf .dst).h ≠ 0#15 := by
  decide

/-- `s` with another FMT code. -/
def withFmt (code : BitVec 5) (s : State) : State := { s with format := ⟨code, s.format.interlaced⟩ }

/-- The FMT codes 24, 31, 23 and 0 at the edges of the catalog, and a frame without rows. -/
theorem witness_LayoutErrors :
    (24 ≤ (withFmt 24#5 gray).format.fmt.toNat ∧ 24 ≤ (withFmt 31#5 gray).format.fmt.toNat) ∧
    (∀ code ∈ [0#5, 23#5], (withFmt code { gray with srcDim := ⟨2#15, 0#15⟩ }).format.fmt.toNat ≤ 23) ∧
    (({ gray with srcDim := ⟨2#15, 0#15⟩ } : State).dimOf .src).h = 0#15 ∧
    (({ gray with dstDim := ⟨0#15, 1#15⟩ } : State).dimOf .dst).w = 0#15 := by decide

/-- The luma plane of a progressive frame, and the last chroma plane in field 1 of an interlaced one. -/
theorem witness_LocatePublishesTheGeometry :
    (Format.ofCode gray.format.fmt = some .gray8 ∧ (gray.dimOf .src).w ≠ 0#15 ∧ (gray.dimOf .src).h ≠ 0#15 ∧
      ⟨.y, 2, 1, 1, 4, 0⟩ ∈ layout .gray8 (gray.dimOf .src).w.toNat (gray.dimOf .src).h.toNat) ∧
    (Format.ofCode fields2.format.fmt = some .i420 ∧ (fields2.dimOf .dst).w ≠ 0#15 ∧ (fields2.dimOf .dst).h ≠ 0#15 ∧
      ⟨.v, 1, 2, 2, 4, 24⟩ ∈ layout .i420 (fields2.dimOf .dst).w.toNat (fields2.dimOf .dst).h.toNat ∧
      fields2.format.interlaced = true) := by decide

theorem witness_LocateErrors :
    gray.format.interlaced = false ∧ 24 ≤ (withFmt 24#5 gray).format.fmt.toNat ∧
    (({ gray with srcDim := ⟨0#15, 1#15⟩ } : State).format.fmt.toNat ≤ 23 ∧
      (({ gray with srcDim := ⟨0#15, 1#15⟩ } : State).dimOf .src).w = 0#15) ∧
    (Format.ofCode gray.format.fmt = some .gray8 ∧ (gray.dimOf .src).w ≠ 0#15 ∧ (gray.dimOf .src).h ≠ 0#15 ∧
      (layout .gray8 (gray.dimOf .src).w.toNat (gray.dimOf .src).h.toNat).length = 1) := by decide

/-- A plane of three rows has rows 0 and 1 in field 0 and row 0 in field 1; a plane of one row has none in field 1. -/
theorem witness_FieldsPartitionThePlane :
    (1 < (locate ⟨.y, 2, 3, 4, 4, 0⟩ 0 .f0 true).h ∧ 0 < (locate ⟨.y, 2, 3, 4, 4, 0⟩ 0 .f1 true).h) ∧
    (locate ⟨.y, 1, 1, 2, 4, 0⟩ 0 .f1 true).h = 0 := by decide

theorem witness_SourceCoordinateInRange : ((1 : Nat) ≤ 1 ∧ (0 : Nat) < 1) ∧ (1 : Nat) ≤ 32767 ∧ (32766 : Nat) < 32767 := by
  decide

theorem witness_NearestTakesTheFloorSample :
    ((1 : Nat) ≤ 1 ∧ (0 : Nat) < 1) ∧ (1 : Nat) ≤ 6 ∧ (2 : Nat) < 3 ∧ (6 : Nat) = 2 * 3 := by decide

theorem witness_BilinearStaysBetweenItsSamples :
    (1 : Nat) ≤ 2 ∧ (1 : Nat) ≤ 1 ∧ (3 : Nat) < 4 ∧ (0 : Nat) < 1 ∧ (255 : Nat) ≤ 255 ∧
    ∀ cx cy : Nat, (cx = srcIndex 3 2 4 ∨ cx = min (srcIndex 3 2 4 + 1) (2 - 1)) →
      (cy = srcIndex 0 1 1 ∨ cy = min (srcIndex 0 1 1 + 1) (1 - 1)) → 0 ≤ (255 : Nat) ∧ (255 : Nat) ≤ 255 :=
  ⟨by decide, by decide, by decide, by decide, by decide, fun _ _ _ _ => by decide⟩

theorem witness_DefaultTapTable : (0 : Nat) < 256 ∧ (255 : Nat) < 256 := by decide

/-- A tap table that is not the default one. -/
def rampTaps : Config.TapTable := .rows ((List.range 256).map fun ph : Nat => ⟨0, 1024 - (ph : Int), ph, 0⟩)

theorem rampTaps_row {ph : Nat} (h : ph < 256) : tapRow rampTaps ph = ⟨0, 1024 - ph, ph, 0⟩ := by
  show (List.getD _ ph _ : Config.TapRow) = _
  rw [List.getD_eq_getElem?_getD, List.getElem?_map, List.getElem?_range h]
  rfl

/-- R224 holds of it, so a block may have it. -/
theorem rampTaps_valid : TapsValid rampTaps := by
  refine ⟨rampTaps_row (by decide), fun ph h => ?_⟩
  rw [rampTaps_row h]
  simp

/-- The largest and the smallest value of a channel, and a tap table whose rows sum to 1024. -/
theorem witness_ConstantImagesScaleToThemselves :
    (255 : Nat) ≤ 255 ∧ (0 : Nat) ≤ 65535 ∧
    ∀ ph, ph < 256 →
      (tapRow rampTaps ph).t0 + (tapRow rampTaps ph).t1 + (tapRow rampTaps ph).t2 + (tapRow rampTaps ph).t3 = 1024 :=
  ⟨by decide, by decide, rampTaps_valid.2⟩

/-- Two images that differ only outside 2 × 1. -/
theorem witness_KernelsReadOnlyTheImage :
    (1 : Nat) ≤ 2 ∧ (1 : Nat) ≤ 1 ∧ (3 : Nat) < 4 ∧ (0 : Nat) < 1 ∧
    ∀ cx cy : Nat, cx < 2 → cy < 1 → cx + cy = if cx < 2 ∧ cy < 1 then cx + cy else 9 :=
  ⟨by decide, by decide, by decide, by decide, fun _ _ hx hy => by simp [hx, hy]⟩

theorem witness_EqualExtentsGiveTheImage :
    (1 : Nat) < 2 ∧ (0 : Nat) < 1 ∧ tapRow .catmullRom 0 = ⟨0, 1024, 0, 0⟩ ∧ tapRow rampTaps 0 = ⟨0, 1024, 0, 0⟩ ∧
    ∀ cx cy : Nat, cx < 2 → cy < 1 → 255 * cx ≤ 255 :=
  ⟨by decide, by decide, by decide, rampTaps_row (by decide), fun _ _ hx _ => by omega⟩

theorem witness_ChannelsStayInTheirFields :
    wordUnit [⟨15, 1⟩, ⟨10, 5⟩, ⟨5, 5⟩, ⟨0, 5⟩] ∈ unitsOf .rgb555 ∧
    (⟨15, 1⟩ : Channel) ∈ (wordUnit [⟨15, 1⟩, ⟨10, 5⟩, ⟨5, 5⟩, ⟨0, 5⟩]).channels ∧
    byteUnit 4 3 true ∈ unitsOf .yuy2 ∧ (⟨0, 8⟩ : Channel) ∈ (byteUnit 4 3 true).channels := by decide

theorem witness_RunCompletes :
    (Instr.runNearest, Method.nearest) ∈ runForms ∧ (Instr.runBilinear, Method.bilinear) ∈ runForms ∧
    (Instr.runFourTap, Method.fourTap) ∈ runForms ∧
    (Frames gray .gray8 (layout .gray8 2 1) (layout .gray8 4 1) ∧
      SourceRows (gray.frameWork (layout .gray8 2 1) (layout .gray8 4 1)) ∧
      Buffers gray (layout .gray8 2 1) (layout .gray8 4 1)) ∧
    (Frames fields2 .i420 (layout .i420 2 3) (layout .i420 2 3) ∧
      SourceRows (fields2.frameWork (layout .i420 2 3) (layout .i420 2 3)) ∧
      Buffers fields2 (layout .i420 2 3) (layout .i420 2 3)) :=
  ⟨by decide, by decide, by decide, ⟨frames_gray, rows_gray, buffers_gray⟩, frames_fields2, rows_fields2,
   buffers_fields2⟩

/-- The V plane of the interlaced frame in field 1. -/
theorem witness_ScalePlaneCompletes :
    (∀ m ∈ [(Instr.scalePlaneNearest 2#2 .f1, Method.nearest), (Instr.scalePlaneBilinear 2#2 .f1, Method.bilinear),
      (Instr.scalePlaneFourTap 2#2 .f1, Method.fourTap)], m ∈ planeForms Role.v.code .f1) ∧
    Frames fields2 .i420 (layout .i420 2 3) (layout .i420 2 3) ∧ fields2.format.interlaced = true ∧
    (⟨.v, 1, 2, 2, 4, 24⟩ : PlaneGeom) ∈ layout .i420 2 3 ∧
    SourceRows [fields2.planeField .f1 ⟨.v, 1, 2, 2, 4, 24⟩ ⟨.v, 1, 2, 2, 4, 24⟩] ∧
    Buffers fields2 (layout .i420 2 3) (layout .i420 2 3) :=
  ⟨by decide, frames_fields2, by decide, by decide, by unfold SourceRows; decide, buffers_fields2⟩

/-- The premises of a RUN, no hazard, and a sample of the last plane-field. -/
theorem witness_RunWritesTheFrame :
    (Instr.runFourTap, Method.fourTap) ∈ runForms ∧ Frames fields2 .i420 (layout .i420 2 3) (layout .i420 2 3) ∧
    SourceRows (fields2.frameWork (layout .i420 2 3) (layout .i420 2 3)) ∧
    Buffers fields2 (layout .i420 2 3) (layout .i420 2 3) ∧ fields2.hazard = false ∧
    (⟨⟨0x101C, 1, 1, 8⟩, ⟨0x201C, 1, 1, 8⟩⟩ : PlaneField) ∈ fields2.frameWork (layout .i420 2 3) (layout .i420 2 3) ∧
    (0 < (byteUnit 1 0 false).width 1 ∧ byteUnit 1 0 false ∈ unitsOf .i420) ∧
    (fields2.format.interlaced = true ∧ (layout .i420 2 3)[2]? = some ⟨.v, 1, 2, 2, 4, 24⟩ ∧
      ⟨1, 0, false, false, 0, 8⟩ ∈ classChannels fields2.format.fmt.toNat ∧
      0 < (fieldPlane ⟨.v, 1, 2, 2, 4, 24⟩ fields2.dstBase.toNat .f1 true).h) :=
  ⟨by decide, frames_fields2, rows_fields2, buffers_fields2, rfl, by decide, by decide, by decide⟩

/-- The channels the statements list for each format are those of its kernel class. -/
theorem test_class_channels :
    ∀ code : BitVec 5, ∀ fmt ∈ Format.ofCode code,
      ((unitsOf fmt).flatMap fun u => u.channels.map fun c =>
        (⟨u.pitch, u.offset, u.half, u.wide, c.lo, c.bits⟩ : ClassChannel)) = classChannels code.toNat := by decide

theorem witness_ScalePlaneWritesThePlane :
    (Instr.scalePlaneFourTap 0#2 .f0, Method.fourTap) ∈ planeForms Role.y.code .f0 ∧
    Frames gray .gray8 (layout .gray8 2 1) (layout .gray8 4 1) ∧ ⟨.y, 2, 1, 1, 4, 0⟩ ∈ layout .gray8 2 1 ∧
    ⟨.y, 4, 1, 1, 4, 0⟩ ∈ layout .gray8 4 1 ∧
    SourceRows [gray.planeField .f0 ⟨.y, 2, 1, 1, 4, 0⟩ ⟨.y, 4, 1, 1, 4, 0⟩] ∧
    Buffers gray (layout .gray8 2 1) (layout .gray8 4 1) ∧ gray.hazard = false :=
  ⟨by decide, frames_gray, by decide, by decide, by unfold SourceRows; decide, buffers_gray, rfl⟩

/-- Each check of R316 fails first somewhere: the sizes, region ends, scratch and overlaps at one byte from passing. -/
theorem witness_RunReportsTheFirstFailingCheck :
    (24 ≤ (withFmt 24#5 gray).format.fmt.toNat ∧ 24 ≤ (withFmt 31#5 gray).format.fmt.toNat) ∧
    (gray.format.fmt.toNat ≤ 23 ∧ ({ gray with dstDim := ⟨4#15, 0#15⟩ } : State).dstDim.h = 0#15) ∧
    (Frames thin .gray8 (layout .gray8 1 1) (layout .gray8 1 2) ∧
      ¬SourceRows (thin.frameWork (layout .gray8 1 1) (layout .gray8 1 2))) ∧
    (∀ s ∈ [{ gray with dstSize := 5#32 }, { gray with dstSize := 3#32 }, { gray with srcSize := 3#32 }],
      ¬SizesFit s (layout .gray8 2 1) (layout .gray8 4 1)) ∧
    (SizesFit { gray with srcSize := 5#32 } (layout .gray8 2 1) (layout .gray8 4 1) ∧
      RegionsEnd { gray with srcBase := 0xFFFFFFFC#32 } ∧ ¬RegionsEnd { gray with srcBase := 0xFFFFFFFD#32 }) ∧
    ¬ScratchFits { gray with scrSize := 15#32 } (layout .gray8 4 1) ∧
    (RegionsApart { gray with dstBase := 0x1004#32 } ∧ ¬RegionsApart { gray with dstBase := 0x1003#32 }) := by
  refine ⟨by decide, by decide, ⟨frames_thin, by unfold SourceRows; decide⟩, by unfold SizesFit; decide,
    by unfold SizesFit RegionsEnd; decide, by unfold ScratchFits; decide, by unfold RegionsApart Apart; decide⟩

/-- The clauses a SCALE_PLANE has of its own: the decode check, a role the format lacks, and field 1 of a source of one
row; the others are those of RUN. -/
theorem witness_ScalePlaneReportsTheFirstFailingCheck :
    (Instr.scalePlaneNearest 3#2 .f0, Method.nearest) ∈ planeForms 3#2 .f0 ∧ gray.format.interlaced = false ∧
    (Frames gray .gray8 (layout .gray8 2 1) (layout .gray8 4 1) ∧
      (∀ r ∈ [1#2, 2#2], ∀ g ∈ layout .gray8 2 1, g.role.code ≠ r)) ∧
    (Frames thin .gray8 (layout .gray8 1 1) (layout .gray8 1 2) ∧ thin.format.interlaced = true ∧
      ⟨.y, 1, 1, 1, 4, 0⟩ ∈ layout .gray8 1 1 ∧ ⟨.y, 1, 2, 2, 4, 0⟩ ∈ layout .gray8 1 2 ∧
      ¬SourceRows [thin.planeField .f1 ⟨.y, 1, 1, 1, 4, 0⟩ ⟨.y, 1, 2, 2, 4, 0⟩] ∧
      SourceRows [thin.planeField .f0 ⟨.y, 1, 1, 1, 4, 0⟩ ⟨.y, 1, 2, 2, 4, 0⟩]) :=
  ⟨by decide, by decide, ⟨frames_gray, by decide⟩, frames_thin, by decide, by decide, by decide,
   by unfold SourceRows; decide, by unfold SourceRows; decide⟩

theorem witness_ErrorCompletionsTouchNothing :
    ∃ t, Instr.scalePlaneNearest 1#2 .f0 ≠ .clear ∧ exec (.scalePlaneNearest 1#2 .f0) gray = .next t ∧
      t.status.done = false :=
  ⟨_, by decide, rfl, by decide⟩

theorem witness_EffectiveMethodIsRecorded :
    (Instr.runFourTap, Method.fourTap) ∈ runForms ∧ (∃ t, exec .runFourTap gray = .next t) ∧
    (Instr.scalePlaneFourTap 3#2 .f0, Method.fourTap) ∈ planeForms 3#2 .f0 ∧
    (∃ t, exec (.scalePlaneFourTap 3#2 .f0) gray = .next t) ∧ isScale .nop = false ∧ ∃ t, exec .nop gray = .next t :=
  ⟨by decide, ⟨_, rfl⟩, by decide, ⟨_, rfl⟩, rfl, ⟨_, rfl⟩⟩

theorem witness_DowngradedFourTapIsBilinear : fields2.srcDim.h.toNat < 4 ∧ gray.srcDim.h.toNat < 4 := by decide

theorem witness_RunAtEqualSizeIsTheIdentity :
    (Instr.runBilinear, Method.bilinear) ∈ runForms ∧ Frames fields2 .i420 (layout .i420 2 3) (layout .i420 2 3) ∧
    SourceRows (fields2.frameWork (layout .i420 2 3) (layout .i420 2 3)) ∧
    Buffers fields2 (layout .i420 2 3) (layout .i420 2 3) ∧ fields2.hazard = false ∧ fields2.dstDim = fields2.srcDim ∧
    TapsValid fields2.params.taps ∧
    fields2.dstBase.toNat + 28 ∈ destBytes .i420 (fields2.frameWork (layout .i420 2 3) (layout .i420 2 3)) :=
  ⟨by decide, frames_fields2, rows_fields2, buffers_fields2, rfl, rfl, tapsValid_catmullRom, by decide⟩

/-- A second memory that also lists the byte before the source region. -/
theorem witness_OnlyTheSourceRegionMatters :
    ∃ p t t', gray.hazard = false ∧ gray.planOf .runBilinear = some p ∧
      (∀ a, gray.srcRegion.covers a = true → Memory.read8 ((0x0FFF, 7#8) :: gray.mem) a = gray.mem.read8 a) ∧
      exec .runBilinear gray = .next t ∧ exec .runBilinear { gray with mem := (0x0FFF, 7#8) :: gray.mem } = .next t' ∧
      0x2000 ∈ p.destAddrs := by
  refine ⟨⟨.bilinear, unitsOf .gray8, [⟨⟨0x1000, 2, 1, 4⟩, ⟨0x2000, 4, 1, 4⟩⟩]⟩, _, _, rfl, by decide, fun a ha => ?_,
    rfl, rfl, by decide⟩
  have hb : 0x1000 ≤ a := by
    simp only [Region.covers, Bool.and_eq_true, decide_eq_true_eq] at ha
    exact ha.1
  rw [Memory.read8, Memory.read8, Memory.get?, if_neg (by omega)]

theorem witness_RunEqualsItsPlanes :
    Frames fields2 .i420 (layout .i420 2 3) (layout .i420 2 3) ∧
    SourceRows (fields2.frameWork (layout .i420 2 3) (layout .i420 2 3)) ∧
    Buffers fields2 (layout .i420 2 3) (layout .i420 2 3) ∧ fields2.hazard = false ∧
    fields2.scrRegion.covers 0x2000 = false :=
  ⟨frames_fields2, rows_fields2, buffers_fields2, rfl, by decide⟩

/-- A RUN that succeeds, and a SCALE_PLANE and a NOP that leave scratch alone. -/
theorem witness_ScratchIsUnspecifiedAfterSuccess :
    (∃ t, exec .runBilinear gray = .next t ∧ isScale .runBilinear = true ∧ t.status.done = true) ∧
    gray.scrRegion.covers 0x3000 = true ∧ gray.scrRegion.covers 0x300F = true ∧
    (∃ t, exec (.scalePlaneNearest 1#2 .f0) gray = .next t ∧ t.status.done = false) ∧ isScale .nop = false :=
  ⟨⟨_, rfl, rfl, by decide⟩, by decide, by decide, ⟨_, rfl, by decide⟩, rfl⟩

theorem witness_CommandsWriteOnlyTheirResults :
    (∃ t, exec .runBilinear gray = .next t) ∧ isLayout .runBilinear = false ∧ isLocate .runBilinear = false ∧
    isScale .nop = false ∧ (∃ t, exec .nop gray = .next t) ∧ gray.planOf .nop = none ∧
    ∃ p, gray.planOf .runBilinear = some p ∧ 0x2004 ∉ p.destAddrs ∧ gray.scrRegion.covers 0x2004 = false :=
  ⟨⟨_, rfl⟩, rfl, rfl, rfl, ⟨_, rfl⟩, rfl,
   ⟨.bilinear, unitsOf .gray8, [⟨⟨0x1000, 2, 1, 4⟩, ⟨0x2000, 4, 1, 4⟩⟩]⟩, by decide⟩

theorem witness_StepRunsTheDecodedCommand :
    (running.schedule = [] ∧ running.curCmd = some 0x14#32 ∧ decode 0x14#32 = .ok .runBilinear) ∧
    ({ running with schedule := [.blockTurn] } : State).schedule = .blockTurn :: [] ∧
    (({ gray with schedule := [.regWrite 4 0x008 0x05#32] } : State).schedule = .regWrite 4 0x008 0x05#32 :: [] ∧
      gray.status.busy = false) ∧
    (gray.curCmd = none ∧ gray.schedule = []) ∧ ({ gray with schedule := [.blockTurn] } : State).curCmd = none := by decide

theorem witness_IssuedCommandsComplete :
    ({ gray with schedule := [issue 0x24#32, .blockTurn, .reset] } : State).status.busy = false ∧
    ({ gray with schedule := [issue 0x24#32, .blockTurn, .reset] } : State).curCmd = none ∧
    ({ gray with schedule := [issue 0x24#32, .blockTurn, .reset] } : State).schedule =
      .regWrite 4 0x008 0x24#32 :: .blockTurn :: [.reset] := by decide

/-- A state with a RUN in flight satisfies the invariant. -/
theorem inv_running : running.Inv where
  status :=
    { exclusive := by decide, busyQuiet := by decide, codeQuiet := by decide, codeRaised := by decide
      method := by decide, seqIdle := by decide }
  busy := by decide
  inFlight := fun w h => by
    have hw : w = 0x14#32 := (Option.some.inj h).symm
    subst hw
    decide
  runSeq := by decide
  hazard := by decide
  memory := by decide
  taps := tapsValid_catmullRom

theorem witness_StepKeepsTheInvariant : ∃ t, (running.Inv ∧ running.params = Config.Params.standard) ∧ step running = .next t :=
  ⟨_, ⟨inv_running, rfl⟩, rfl⟩

theorem witness_NoStepFaults :
    running.Inv ∧ step { running with schedule := [.regWrite 2 0 1#32] } = .refused (.registerAccess 2 0) :=
  ⟨inv_running, rfl⟩

theorem witness_MemoryStaysInTheAddressSpace : ∃ t, running.mem.inSpace ∧ step running = .next t :=
  ⟨_, by decide, rfl⟩

/-- The smallest extents, and the last destination sample of an enlargement. -/
theorem witness_BilinearValue :
    ((1 : Nat) ≤ 1 ∧ (0 : Nat) < 1) ∧ (1 : Nat) ≤ 2 ∧ (3 : Nat) < 4 := by decide

theorem witness_FourTapValue :
    ((1 : Nat) ≤ 1 ∧ (0 : Nat) < 1) ∧ (1 : Nat) ≤ 5 ∧ (2 : Nat) < 3 := by decide

end Sys2Proof.Tests
end

section
/-! SUPPORT. The completion of a command: what `exec` does, said once for every command, and what the decoder tells about
the word in flight (spec 45_commands.md R271; 60_exceptions.md R310, R312, R320; 30_encoding.md R110, R113). -/

namespace Sys2Proof.Machine

variable {s t : State} {code : ErrorCode}

/-! ### The meaning of each command -/

theorem exec_nop (s : State) : exec .nop s = .next (s.succeed false) := rfl
theorem exec_layout (sel : Sel) (s : State) : exec (.layout sel) s = execLayout sel s := rfl
theorem exec_locate (sel : Sel) (role : BitVec 2) (field : Field) (s : State) :
    exec (.locate sel role field) s = execLocate sel role field s := rfl
theorem exec_scalePlaneNearest (role : BitVec 2) (field : Field) (s : State) :
    exec (.scalePlaneNearest role field) s = .next (scalePlane .nearest role field s) := rfl
theorem exec_scalePlaneBilinear (role : BitVec 2) (field : Field) (s : State) :
    exec (.scalePlaneBilinear role field) s = .next (scalePlane .bilinear role field s) := rfl
theorem exec_scalePlaneFourTap (role : BitVec 2) (field : Field) (s : State) :
    exec (.scalePlaneFourTap role field) s = .next (scalePlane .fourTap role field s) := rfl
theorem exec_runNearest (s : State) : exec .runNearest s = .next (run .nearest s) := rfl
theorem exec_runBilinear (s : State) : exec .runBilinear s = .next (run .bilinear s) := rfl
theorem exec_runFourTap (s : State) : exec .runFourTap s = .next (run .fourTap s) := rfl
theorem exec_clear (s : State) : exec .clear s = .next { s with status := s.status.cleared } := rfl

/-- What a LAYOUT does (R160). -/
theorem execLayout_cases (sel : Sel) (s : State) :
    (∃ code, s.frameLayout sel = .error code ∧ execLayout sel s = .next (s.fail code)) ∨
    ∃ l, s.frameLayout sel = .ok l ∧ execLayout sel s = .next ((s.publishLayout l).succeed false) := by
  unfold execLayout
  cases s.frameLayout sel with
  | error code => exact .inl ⟨code, rfl, rfl⟩
  | ok l => exact .inr ⟨l, rfl, rfl⟩

/-- What a LOCATE does (42_plane_locator.md R185). -/
theorem execLocate_cases (sel : Sel) (role : BitVec 2) (field : Field) (s : State) :
    (∃ code, s.locateResult sel role field = .error code ∧ execLocate sel role field s = .next (s.fail code)) ∨
    ∃ e, s.locateResult sel role field = .ok e ∧
      execLocate sel role field s = .next ((s.publishLocation e).succeed false) := by
  unfold execLocate
  cases s.locateResult sel role field with
  | error code => exact .inl ⟨code, rfl, rfl⟩
  | ok e => exact .inr ⟨e, rfl, rfl⟩

/-! ### The error codes a command reports -/

/-- An error kind some command reports: its code is one of 1 and 4 to 10 (R310, R312). -/
def ErrorCode.Reported (code : ErrorCode) : Prop := code.bits ≠ 0#4 ∧ neverRaised code.bits = false

theorem ErrorCode.reported_of_ne (h2 : code ≠ .unsupportedMethodForFormat) (h3 : code ≠ .numericOverflow) :
    code.Reported := by
  unfold ErrorCode.Reported
  cases code with
  | unsupportedMethodForFormat => exact absurd rfl h2
  | numericOverflow => exact absurd rfl h3
  | _ => decide

theorem ErrorCode.reported_illegalCommand : ErrorCode.illegalCommand.Reported :=
  ErrorCode.reported_of_ne (by decide) (by decide)

theorem State.frameLayout_reported {sel : Sel} (h : s.frameLayout sel = .error code) : code.Reported := by
  unfold State.frameLayout at h
  split at h
  · cases h
    exact ErrorCode.reported_of_ne (by decide) (by decide)
  · split at h
    · cases h
    · cases h
      exact ErrorCode.reported_of_ne (by decide) (by decide)

theorem State.locateResult_reported {sel : Sel} {role : BitVec 2} {field : Field}
    (h : s.locateResult sel role field = .error code) : code.Reported := by
  unfold State.locateResult at h
  split at h
  · cases h
    exact ErrorCode.reported_illegalCommand
  · split at h
    · split at h
      · rename_i hl
        cases h
        exact State.frameLayout_reported hl
      · split at h
        · cases h
          exact ErrorCode.reported_of_ne (by decide) (by decide)
        · cases h
    · cases h
      exact ErrorCode.reported_illegalCommand

theorem State.bothLayouts_reported (h : s.bothLayouts = .error code) : code.Reported := by
  unfold State.bothLayouts at h
  split at h
  · cases h
    exact ErrorCode.reported_of_ne (by decide) (by decide)
  · split at h
    · cases h
    · cases h
      exact ErrorCode.reported_of_ne (by decide) (by decide)

theorem State.validate_reported {lsrc ldst : Layout} {work : List PlaneField}
    (h : s.validate lsrc ldst work = some code) : code.Reported := by
  unfold State.validate at h
  split_ifs at h <;> cases h <;> exact ErrorCode.reported_of_ne (by decide) (by decide)

theorem State.planFor_reported {method : Method} {fmt : Format} {lsrc ldst : Layout} {work : List PlaneField}
    (h : s.planFor method fmt lsrc ldst work = .error code) : code.Reported := by
  unfold State.planFor at h
  split at h
  · rename_i hv
    cases h
    exact State.validate_reported hv
  · cases h

theorem State.runPlan_reported {method : Method} (h : s.runPlan method = .error code) : code.Reported := by
  unfold State.runPlan at h
  split at h
  · rename_i hb
    cases h
    exact State.bothLayouts_reported hb
  · exact State.planFor_reported h

theorem State.scalePlan_reported {method : Method} {role : Role} {field : Field}
    (h : s.scalePlan method role field = .error code) : code.Reported := by
  unfold State.scalePlan at h
  split at h
  · rename_i hb
    cases h
    exact State.bothLayouts_reported hb
  · split at h
    · cases h
      exact ErrorCode.reported_of_ne (by decide) (by decide)
    · exact State.planFor_reported h

/-! ### Everything a completion can do -/

theorem Method.code_ne_three (m : Method) : m.code ≠ 3#2 := by
  cases m <;> decide

/-- What a command has changed before it completes, as far as the invariant sees it: EFFM may be a method's code, and
memory has been written byte by byte. -/
structure Worked (s u : State) : Prop where
  status : u.status = s.status ∨ ∃ m : Method, u.status = { s.status with effm := m.code }
  memory : s.mem.wf → u.mem.wf
  params : u.params = s.params

theorem Worked.refl (s : State) : Worked s s := ⟨.inl rfl, id, rfl⟩

theorem Worked.recordMethod (m : Method) (s : State) : Worked s (s.recordMethod m) := ⟨.inr ⟨m, rfl⟩, id, rfl⟩

/-- The two ways a command completes: with an error some command reports (R320), or successfully (R271). -/
def Completes (isRun : Bool) (s : State) (o : Host.Outcome State Fault Refusal) : Prop :=
  ∃ u, Worked s u ∧ ((∃ code : ErrorCode, code.Reported ∧ o = .next (u.fail code)) ∨ o = .next (u.succeed isRun))

theorem completes_fail (isRun : Bool) (h : code.Reported) : Completes isRun s (.next (s.fail code)) :=
  ⟨s, Worked.refl s, .inl ⟨code, h, rfl⟩⟩

theorem completeScale_completes (method : Method) (isRun : Bool) {plan : Except ErrorCode Plan}
    (h : ∀ code, plan = .error code → code.Reported) : Completes isRun s (.next (s.completeScale method isRun plan)) := by
  rcases State.completeScale_cases method isRun plan s with ⟨code, hp, he⟩ | ⟨p, -, he⟩
  · exact ⟨_, Worked.recordMethod _ s, .inl ⟨code, h code hp, by rw [he]⟩⟩
  · exact ⟨(s.recordMethod (s.effMethod method)).applyPlan p,
      ⟨.inr ⟨_, rfl⟩, fun hm => State.applyPlan_wf p hm, rfl⟩, .inr (by rw [he])⟩

theorem scalePlane_completes (method : Method) (role : BitVec 2) (field : Field) (s : State) :
    Completes false s (.next (scalePlane method role field s)) := by
  rcases scalePlane_cases method role field s with he | ⟨r, -, -, he⟩
  · rw [he]
    exact completes_fail _ ErrorCode.reported_illegalCommand
  · rw [he]
    exact completeScale_completes _ _ fun _ => State.scalePlan_reported

theorem run_completes (method : Method) (s : State) : Completes true s (.next (run method s)) :=
  completeScale_completes _ _ fun _ => State.runPlan_reported

/-- RUN, by any method. -/
def isRunForm : Instr → Bool
  | .runNearest | .runBilinear | .runFourTap => true
  | _ => false

/-- Every command but CLEAR completes, with an error code of R310 or successfully (R271, R320). -/
theorem exec_completes {i : Instr} (hi : i ≠ .clear) (s : State) : Completes (isRunForm i) s (exec i s) := by
  cases i with
  | nop => exact ⟨s, Worked.refl s, .inr (exec_nop s)⟩
  | layout sel =>
    rw [exec_layout]
    rcases execLayout_cases sel s with ⟨code, hl, he⟩ | ⟨l, -, he⟩
    · rw [he]
      exact completes_fail _ (State.frameLayout_reported hl)
    · exact ⟨s.publishLayout l, ⟨.inl rfl, id, rfl⟩, .inr he⟩
  | locate sel role field =>
    rw [exec_locate]
    rcases execLocate_cases sel role field s with ⟨code, hl, he⟩ | ⟨e, -, he⟩
    · rw [he]
      exact completes_fail _ (State.locateResult_reported hl)
    · exact ⟨s.publishLocation e, ⟨.inl rfl, id, rfl⟩, .inr he⟩
  | scalePlaneNearest role field => exact scalePlane_completes .nearest role field s
  | scalePlaneBilinear role field => exact scalePlane_completes .bilinear role field s
  | scalePlaneFourTap role field => exact scalePlane_completes .fourTap role field s
  | runNearest => exact run_completes .nearest s
  | runBilinear => exact run_completes .bilinear s
  | runFourTap => exact run_completes .fourTap s
  | clear => exact absurd rfl hi

/-! ### The word in flight -/

/-- The OP of fields that stand for a command is the OP of the command's row of the opcode table (R113, R130). -/
theorem decodeFields_op {f : Fields} {i : Instr} (h : decodeFields f = .ok i) :
    f.op = i.row.pattern.extractLsb' 0 4 := by
  unfold decodeFields at h
  split at h
  · cases h
  · split at h
    case h_1 hop =>
      split at h <;> cases h
      simp [BitVec.toNat_eq, hop, Instr.row]
    case h_2 hop =>
      split at h <;> cases h
      simp [BitVec.toNat_eq, hop, Instr.row]
    case h_3 hop =>
      split at h
      · cases h
      · split at h <;> cases h
        simp [BitVec.toNat_eq, hop, Instr.row]
    case h_4 hop =>
      split at h
      · cases h
      · split at h
        · cases h
        · split at h <;> cases h <;> simp [BitVec.toNat_eq, hop, Instr.row]
    case h_5 hop =>
      split at h
      · cases h
      · split at h <;> cases h <;> simp [BitVec.toNat_eq, hop, Instr.row]
    case h_6 hop =>
      split at h <;> cases h
      simp [BitVec.toNat_eq, hop, Instr.row]
    case h_7 => cases h

/-- Only the fields of 0x00000005 decode to CLEAR (R127 condition 4). -/
theorem decodeFields_clear {f : Fields} (h : decodeFields f = .ok .clear) : f = fieldsOf clearWord := by
  have hop : f.op = 5#4 := decodeFields_op h
  obtain ⟨op, method, sel, role, field, res76, res9, res31⟩ := f
  subst hop
  unfold decodeFields at h
  split at h
  · cases h
  · rename_i hres
    simp only [ne_eq, not_or, not_not] at hres
    obtain ⟨rfl, rfl, rfl⟩ := hres
    have hzero : method = 0#2 ∧ sel = 0#1 ∧ role = 0#2 ∧ field = 0#1 := by simpa using h
    obtain ⟨rfl, rfl, rfl, rfl⟩ := hzero
    decide

/-- A word is determined by its fields: they cover its 32 bits (R110). -/
theorem fieldsOf_injective {v w : Word} (h : fieldsOf v = fieldsOf w) : v = w := by
  simp only [fieldsOf, Fields.mk.injEq, BitVec.toNat_eq, BitVec.extractLsb'_toNat, Nat.shiftRight_eq_div_pow] at h
  apply BitVec.eq_of_toNat_eq
  have hv := v.isLt
  have hw := w.isLt
  omega

end Sys2Proof.Machine
end

section
/-! SUPPORT. The invariant of the block: how the updates of the machine keep it, and that every step does (spec
10_state.md R40 to R47, R66, R67). -/

namespace Sys2Proof.Machine

variable {s t u : State} {st : Status}

/-! ### The decoded command and the word in flight -/

/-- A word that decodes to a RUN has OP = 4 (R113). -/
theorem decode_run_op {w : Word} {i : Instr} (h : decode w = .ok i) (hi : isRunForm i = true) :
    w.extractLsb' 0 4 = opRun := by
  have hop : w.extractLsb' 0 4 = i.row.pattern.extractLsb' 0 4 := decodeFields_op h
  rw [hop]
  cases i with
  | runNearest | runBilinear | runFourTap => rfl
  | _ => cases hi

/-- Only CLEAR's word decodes to CLEAR (R127 condition 4). -/
theorem decode_clear {w : Word} (h : decode w = .ok .clear) : w = clearWord :=
  fieldsOf_injective (decodeFields_clear h)

theorem State.runInFlight_of_none (h : s.curCmd = none) : s.runInFlight = false := by
  simp [State.runInFlight, h]

theorem State.runInFlight_of_some {w : Word} (h : s.curCmd = some w) :
    s.runInFlight = (w.extractLsb' 0 4 == opRun) := by
  simp [State.runInFlight, h]

theorem State.runInFlight_congr (h : t.curCmd = s.curCmd) : t.runInFlight = s.runInFlight := by
  simp [State.runInFlight, h]

/-! ### The flags of STATUS stay coherent -/

theorem Status.coherent_reset : Status.reset.Coherent where
  exclusive := by decide
  busyQuiet := by decide
  codeQuiet := fun _ => rfl
  codeRaised := by decide
  method := by decide
  seqIdle := fun _ => .inl rfl

theorem Status.Coherent.accept (h : st.Coherent) (op : BitVec 4) : (st.accept op).Coherent where
  exclusive := by simp
  busyQuiet := fun _ => ⟨rfl, rfl⟩
  codeQuiet := fun _ => rfl
  codeRaised := by simp
  method := h.method
  seqIdle := by simp

/-- A success leaves ERR as it was, so it is coherent when ERR was 0; a RUN's ends in Done, with OP = 4 (R271, R293). -/
theorem Status.Coherent.succeed (h : st.Coherent) (hb : st.busy = true) {isRun : Bool}
    (hr : isRun = true → st.lastOp = opRun) : (st.succeed isRun).Coherent where
  exclusive := by simp [h.busyQuiet hb]
  busyQuiet := by simp
  codeQuiet := h.codeQuiet
  codeRaised := h.codeRaised
  method := h.method
  seqIdle := fun _ => by
    cases isRun with
    | false => exact .inl rfl
    | true => exact .inr ⟨rfl, rfl, hr rfl⟩

theorem Status.Coherent.fail (h : st.Coherent) {code : ErrorCode} (hc : code.Reported) : (st.fail code).Coherent where
  exclusive := by simp
  busyQuiet := by simp
  codeQuiet := by simp
  codeRaised := fun _ => hc
  method := h.method
  seqIdle := fun _ => .inl rfl

theorem Status.Coherent.cleared (h : st.Coherent) : st.cleared.Coherent where
  exclusive := by simp
  busyQuiet := fun _ => ⟨rfl, rfl⟩
  codeQuiet := fun _ => rfl
  codeRaised := by simp
  method := h.method
  seqIdle := fun _ => .inl rfl

/-- WIGN is bound to no other flag (R43). -/
theorem Status.Coherent.ignored (h : st.Coherent) : ({ st with wign := true } : Status).Coherent where
  exclusive := h.exclusive
  busyQuiet := h.busyQuiet
  codeQuiet := h.codeQuiet
  codeRaised := h.codeRaised
  method := h.method
  seqIdle := h.seqIdle

theorem Status.Coherent.recorded (h : st.Coherent) (m : Method) : ({ st with effm := m.code } : Status).Coherent where
  exclusive := h.exclusive
  busyQuiet := h.busyQuiet
  codeQuiet := h.codeQuiet
  codeRaised := h.codeRaised
  method := m.code_ne_three
  seqIdle := h.seqIdle

/-! ### The invariant under the updates of the state -/

/-- An update that leaves STATUS, CUR_CMD and the parameters alone keeps the invariant when memory stays canonical and a
hazard is marked only while BUSY. -/
theorem State.Inv.frame (h : s.Inv) (hst : t.status = s.status) (hcur : t.curCmd = s.curCmd)
    (hp : t.params = s.params) (hhaz : t.hazard = true → s.status.busy = true) (hm : t.mem.wf) : t.Inv where
  status := hst ▸ h.status
  busy := by rw [hst, hcur]; exact h.busy
  inFlight := by rw [hst, hcur]; exact h.inFlight
  runSeq := by rw [hst, State.runInFlight_congr hcur]; exact h.runSeq
  hazard := by rw [hst]; exact hhaz
  memory := hm
  taps := hp ▸ h.taps

/-- A block with nothing in flight satisfies the invariant when its flags are coherent, memory is canonical and the tap
table is allowed. -/
theorem State.inv_of_idle (hst : s.status.Coherent) (hb : s.status.busy = false) (hcur : s.curCmd = none)
    (hhaz : s.hazard = false) (hm : s.mem.wf) (ht : TapsValid s.params.taps) : s.Inv where
  status := hst
  busy := by rw [hb, hcur]; rfl
  inFlight := by simp [hcur]
  runSeq := by simp [State.runInFlight_of_none hcur]
  hazard := by simp [hhaz]
  memory := hm
  taps := ht

theorem State.Inv.idle (h : s.Inv) (hb : s.status.busy = false) : s.curCmd = none ∧ s.hazard = false := by
  have hcur := h.busy
  have hhaz := h.hazard
  constructor
  · simpa [hb] using hcur
  · simpa [hb] using hhaz

theorem State.Inv.accept (h : s.Inv) {w : Word} (hw : w ≠ clearWord) : (s.acceptWord w).Inv where
  status := h.status.accept _
  busy := rfl
  inFlight := fun v hv => by
    obtain rfl : w = v := by simpa using hv
    exact ⟨hw, rfl⟩
  runSeq := fun hr => by
    rw [State.runInFlight_of_some (State.acceptWord_curCmd s w), beq_iff_eq] at hr
    simp [hr]
  hazard := by simp
  memory := h.memory
  taps := h.taps

theorem State.Inv.ignoreWrite (h : s.Inv) : s.ignoreWrite.Inv where
  status := h.status.ignored
  busy := h.busy
  inFlight := h.inFlight
  runSeq := h.runSeq
  hazard := h.hazard
  memory := h.memory
  taps := h.taps

theorem State.Inv.fail (h : s.Inv) {code : ErrorCode} (hc : code.Reported) : (s.fail code).Inv :=
  State.inv_of_idle (h.status.fail hc) rfl rfl rfl h.memory h.taps

theorem State.Inv.reset (h : s.Inv) : (resetBlock s).Inv :=
  State.inv_of_idle Status.coherent_reset rfl rfl rfl (Memory.wf_writeAll h.memory _) h.taps

/-! ### The invariant under each step -/

/-- An outcome that is a next state has the invariant and the parameters of `s`. -/
def Keeps (s : State) (o : Host.Outcome State Fault Refusal) : Prop :=
  ∀ t, o = .next t → t.Inv ∧ t.params = s.params

theorem keeps_next (h : t.Inv) (hp : t.params = s.params) : Keeps s (.next t) := by
  rintro _ ⟨⟩
  exact ⟨h, hp⟩

theorem Worked.coherent (h : Worked s u) (hs : s.status.Coherent) : u.status.Coherent := by
  rcases h.status with he | ⟨m, he⟩
  · rw [he]; exact hs
  · rw [he]; exact hs.recorded m

theorem Worked.busy_lastOp (h : Worked s u) : u.status.busy = s.status.busy ∧ u.status.lastOp = s.status.lastOp := by
  rcases h.status with he | ⟨m, he⟩ <;> rw [he] <;> exact ⟨rfl, rfl⟩

/-- The completion of a command in flight keeps the invariant; a RUN's needs LAST_OP to be its OP (R271, R320). -/
theorem Completes.keeps {isRun : Bool} {o : Host.Outcome State Fault Refusal} (ho : Completes isRun s o) (h : s.Inv)
    (hb : s.status.busy = true) (hr : isRun = true → s.status.lastOp = opRun) : Keeps s o := by
  obtain ⟨u, hu, hcases⟩ := ho
  obtain ⟨hbusy, hlast⟩ := hu.busy_lastOp
  have hst := hu.coherent h.status
  have hm := hu.memory h.memory
  have ht : TapsValid u.params.taps := hu.params ▸ h.taps
  rcases hcases with ⟨code, hc, rfl⟩ | rfl
  · exact keeps_next (State.inv_of_idle (hst.fail hc) rfl rfl rfl hm ht) hu.params
  · have hdone := hst.succeed (hbusy.trans hb) fun hrun => hlast.trans (hr hrun)
    exact keeps_next (State.inv_of_idle hdone rfl rfl rfl hm ht) hu.params

theorem blockTurn_keeps (h : s.Inv) : Keeps s (blockTurn s) := by
  rcases blockTurn_cases s with ⟨-, he⟩ | ⟨w, e, -, -, he⟩ | ⟨w, i, hcur, hd, he⟩ <;> rw [he]
  · exact keeps_next h rfl
  · exact keeps_next (h.fail ErrorCode.reported_illegalCommand) rfl
  · obtain ⟨hw, hlast⟩ := h.inFlight w hcur
    have hbusy : s.status.busy = true := by rw [h.busy, hcur]; rfl
    have hi : i ≠ .clear := by
      rintro rfl
      exact hw (decode_clear hd)
    exact (exec_completes hi s).keeps h hbusy fun hrun => hlast.trans (decode_run_op hd hrun)

theorem cmdWrite_keeps (h : s.Inv) (w : Word) : Keeps s (cmdWrite w s) := by
  rcases cmdWrite_cases w s with ⟨-, he⟩ | ⟨hb, -, he⟩ | ⟨-, hw, he⟩ <;> rw [he]
  · exact keeps_next h.ignoreWrite rfl
  · obtain ⟨hcur, hhaz⟩ := h.idle hb
    exact keeps_next (State.inv_of_idle h.status.cleared hb hcur hhaz h.memory h.taps) rfl
  · exact keeps_next (h.accept hw) rfl

/-- A host write to a configuration register touches none of the fields the invariant relates. -/
theorem State.writeReg_frame (r : Reg) (v : Word) (s : State) :
    (s.writeReg r v).status = s.status ∧ (s.writeReg r v).curCmd = s.curCmd ∧
      (s.writeReg r v).hazard = s.hazard ∧ (s.writeReg r v).mem = s.mem := by
  cases r <;> exact ⟨rfl, rfl, rfl, rfl⟩

theorem registerWrite_keeps (h : s.Inv) (r : Reg) (v : Word) : Keeps s (registerWrite r v s) := by
  rcases registerWrite_cases r v s with ⟨-, he⟩ | ⟨-, he⟩ | ⟨-, -, -, he⟩ | ⟨-, -, he⟩ <;> rw [he]
  · exact keeps_next h rfl
  · exact cmdWrite_keeps h v
  · exact keeps_next h.ignoreWrite rfl
  · obtain ⟨hst, hcur, hhaz, hm⟩ := State.writeReg_frame r v s
    have hp := State.writeReg_params r v s
    exact keeps_next (h.frame hst hcur hp (hhaz ▸ h.hazard) (hm ▸ h.memory)) hp

theorem State.Inv.answer (h : s.Inv) (v : Word) : (s.answer v).Inv := h.frame rfl rfl rfl h.hazard h.memory

theorem State.Inv.drawn (h : s.Inv) : s.drawn.Inv := h.frame rfl rfl rfl h.hazard h.memory

theorem registerRead_keeps (h : s.Inv) (r : Reg) : Keeps s (registerRead r s) := by
  rcases registerRead_cases r s with ⟨-, -, he⟩ | ⟨v, he | he⟩ <;> rw [he]
  · rintro _ ⟨⟩
  · exact keeps_next (h.answer v) rfl
  · exact keeps_next (h.answer v).drawn rfl

/-- Everything a write access to the window can do: a refusal, nothing at an unlisted offset, or a register's write
(R34, R35). -/
theorem windowWrite_cases (bytes : Nat) (offset : Int) (v : Word) (s : State) :
    windowWrite bytes offset v s = .refused (.registerAccess bytes offset) ∨ windowWrite bytes offset v s = .next s ∨
    ∃ r, windowWrite bytes offset v s = registerWrite r v s := by
  unfold windowWrite
  cases admittedOffset bytes offset with
  | none => exact .inl rfl
  | some o =>
    right
    dsimp only
    cases Reg.ofOffset o with
    | none => exact .inl rfl
    | some r => exact .inr ⟨r, rfl⟩

/-- Everything a read access to the window can do: a refusal, 0 at an unlisted offset, or a register's read (R34, R35). -/
theorem windowRead_cases (bytes : Nat) (offset : Int) (s : State) :
    windowRead bytes offset s = .refused (.registerAccess bytes offset) ∨
    windowRead bytes offset s = .next (s.answer 0#32) ∨ ∃ r, windowRead bytes offset s = registerRead r s := by
  unfold windowRead
  cases admittedOffset bytes offset with
  | none => exact .inl rfl
  | some o =>
    right
    dsimp only
    cases Reg.ofOffset o with
    | none => exact .inl rfl
    | some r => exact .inr ⟨r, rfl⟩

theorem windowWrite_keeps (h : s.Inv) (bytes : Nat) (offset : Int) (v : Word) :
    Keeps s (windowWrite bytes offset v s) := by
  rcases windowWrite_cases bytes offset v s with he | he | ⟨r, he⟩ <;> rw [he]
  · rintro _ ⟨⟩
  · exact keeps_next h rfl
  · exact registerWrite_keeps h r v

theorem windowRead_keeps (h : s.Inv) (bytes : Nat) (offset : Int) : Keeps s (windowRead bytes offset s) := by
  rcases windowRead_cases bytes offset s with he | he | ⟨r, he⟩ <;> rw [he]
  · rintro _ ⟨⟩
  · exact keeps_next (h.answer _) rfl
  · exact registerRead_keeps h r

/-- A host write to memory marks a hazard only while BUSY (20_memory.md R99). -/
theorem memoryWrite_keeps (h : s.Inv) (addr : Nat) (v : Byte) : Keeps s (.next (memoryWrite addr v s)) := by
  unfold memoryWrite
  split
  · rename_i hused
    have hb : s.status.busy = true := by
      rw [Bool.and_eq_true] at hused
      exact hused.1
    exact keeps_next (h.frame rfl rfl rfl (fun _ => hb) (Memory.wf_writeAll h.memory _)) rfl
  · exact keeps_next (h.frame rfl rfl rfl h.hazard (Memory.wf_writeAll h.memory _)) rfl

theorem memoryRead_keeps (h : s.Inv) (addr : Nat) : Keeps s (.next (memoryRead addr s)) := by
  unfold memoryRead
  split
  · exact keeps_next (h.answer _).drawn rfl
  · exact keeps_next (h.answer _) rfl

theorem hostStep_keeps (h : s.Inv) (e : HostEvent) : Keeps s (hostStep e s) := by
  cases e with
  | regWrite bytes offset v => exact windowWrite_keeps h bytes offset v
  | regRead bytes offset => exact windowRead_keeps h bytes offset
  | memWrite addr v => exact memoryWrite_keeps h addr.toNat v
  | memRead addr => exact memoryRead_keeps h addr.toNat
  | reset => exact keeps_next h.reset rfl
  | blockTurn => exact blockTurn_keeps h

theorem step_keeps (h : s.Inv) : Keeps s (step s) := by
  rcases step_cases s with ⟨-, he⟩ | ⟨e, rest, -, he⟩ <;> rw [he]
  · exact blockTurn_keeps h
  · exact hostStep_keeps (s := { s with schedule := rest }) (h.frame rfl rfl rfl h.hazard h.memory) e

/-- Settles O55: one case per event of the schedule and per way a command completes. -/
theorem stepKeepsTheInvariant : Obligations.StepKeepsTheInvariant := by
  unfold Obligations.StepKeepsTheInvariant
  rintro P s t ⟨h, rfl⟩ hstep
  exact step_keeps h t hstep

/-- Settles O56: nothing is in flight, memory lists nothing, and the tap table is the default one. -/
theorem resetSatisfiesTheInvariant : Obligations.ResetSatisfiesTheInvariant :=
  State.inv_of_idle Status.coherent_reset rfl rfl rfl List.Pairwise.nil tapsValid_catmullRom

end Sys2Proof.Machine
end

section
/-! SUPPORT. The register window as the host sees it: the map of 10_state.md R37 as a list, what an access to a listed and
to an unlisted offset does, and the words the registers read as (R34 to R64). -/

namespace Sys2Proof.Machine

open Sys2Proof.Claims

variable {s : State} {r : Reg} {o : Nat}

/-! ### The register map -/

/-- The register map R37: each listed offset with its register. -/
def registerMap : List (Nat × Reg) :=
  [(0x000, .id), (0x004, .status), (0x008, .cmd), (0x00C, .irqEn), (0x010, .format), (0x014, .srcDim), (0x018, .dstDim),
   (0x01C, .srcBase), (0x020, .srcSize), (0x024, .dstBase), (0x028, .dstSize), (0x02C, .scrBase), (0x030, .scrSize),
   (0x040, .lNplanes), (0x044, .lTotal),
   (0x060, .lPlane 0 .w), (0x064, .lPlane 0 .h), (0x068, .lPlane 0 .stride), (0x06C, .lPlane 0 .offset),
   (0x070, .lPlane 0 .size), (0x074, .lPlane 0 .role),
   (0x080, .lPlane 1 .w), (0x084, .lPlane 1 .h), (0x088, .lPlane 1 .stride), (0x08C, .lPlane 1 .offset),
   (0x090, .lPlane 1 .size), (0x094, .lPlane 1 .role),
   (0x0A0, .lPlane 2 .w), (0x0A4, .lPlane 2 .h), (0x0A8, .lPlane 2 .stride), (0x0AC, .lPlane 2 .offset),
   (0x0B0, .lPlane 2 .size), (0x0B4, .lPlane 2 .role),
   (0x0C0, .locPtr), (0x0C4, .locW), (0x0C8, .locH), (0x0CC, .locStride)]

/-- The map is what the port looks offsets up in, and every listed offset is admitted (R34, R37). -/
theorem registerMap_spec : ∀ p ∈ registerMap, Reg.ofOffset p.1 = some p.2 ∧ p.1 < 256 ∧ p.1 % 4 = 0 := by decide

/-- A word offset the map does not list has no register (R35). -/
theorem ofOffset_unlisted (hlt : o < 256) (h4 : o % 4 = 0) (h : o ∉ listedOffsets) : Reg.ofOffset o = none := by
  have words : ∀ k < 64, 4 * k ∉ listedOffsets → Reg.ofOffset (4 * k) = none := by decide
  have ho : 4 * (o / 4) = o := by omega
  rw [← ho] at h ⊢
  exact words (o / 4) (by omega) h

/-- The read-only offsets hold read-only registers (R37). -/
theorem readOnlyOffsets_spec : ∀ o ∈ readOnlyOffsets, ∃ p ∈ registerMap, p.1 = o ∧ p.2.access = .readOnly := by decide

/-- Which offset holds STATUS, and which the result registers (R37, R59 to R62). -/
theorem registerMap_kind :
    ∀ p ∈ registerMap, (p.1 = 0x004 ↔ p.2 = .status) ∧ (p.1 ∈ resultOffsets ↔ p.2.isResult = true) := by decide

/-- The words of the register map are what the registers at its offsets read as. -/
theorem registerWords_eq (s : State) : registerWords s = registerMap.map fun p => (p.1, s.readReg p.2) := rfl

/-! ### An access to the window -/

/-- The step that performs an event is the host's action on the state itself. -/
theorem after_eq_hostStep (e : HostEvent) (s : State) : after e s = hostStep e s := rfl

theorem admittedOffset_word (h : o < 256) (h4 : o % 4 = 0) : admittedOffset 4 (o : Int) = some o :=
  admittedOffset_some.2 ⟨rfl, rfl, h, h4⟩

theorem admittedOffset_none {bytes : Nat} {offset : Int}
    (h : ¬(bytes = 4 ∧ 0 ≤ offset ∧ offset < 256 ∧ offset % 4 = 0)) : admittedOffset bytes offset = none :=
  if_neg h

theorem after_write (h : (o, r) ∈ registerMap) (v : Word) (s : State) :
    after (.regWrite 4 (o : Int) v) s = registerWrite r v s := by
  obtain ⟨hr, hlt, h4⟩ := registerMap_spec _ h
  rw [after_eq_hostStep]
  simp only [hostStep, windowWrite, admittedOffset_word hlt h4, hr]

theorem after_read (h : (o, r) ∈ registerMap) (s : State) :
    after (.regRead 4 (o : Int)) s = registerRead r s := by
  obtain ⟨hr, hlt, h4⟩ := registerMap_spec _ h
  rw [after_eq_hostStep]
  simp only [hostStep, windowRead, admittedOffset_word hlt h4, hr]

theorem after_write_unlisted (hlt : o < 256) (h4 : o % 4 = 0) (h : o ∉ listedOffsets) (v : Word) (s : State) :
    after (.regWrite 4 (o : Int) v) s = .next s := by
  rw [after_eq_hostStep]
  simp only [hostStep, windowWrite, admittedOffset_word hlt h4, ofOffset_unlisted hlt h4 h]

theorem after_read_unlisted (hlt : o < 256) (h4 : o % 4 = 0) (h : o ∉ listedOffsets) (s : State) :
    after (.regRead 4 (o : Int)) s = .next (s.answer 0#32) := by
  rw [after_eq_hostStep]
  simp only [hostStep, windowRead, admittedOffset_word hlt h4, ofOffset_unlisted hlt h4 h]

/-! ### A write to a register -/

theorem registerWrite_readOnly (h : r.access = .readOnly) (v : Word) (s : State) : registerWrite r v s = .next s := by
  simp [registerWrite, h]

/-- A configuration register other than IRQ_EN drops a write while BUSY (R63). -/
theorem registerWrite_locked (h : r.access = .readWrite) (hr : r ≠ .irqEn) (hb : s.status.busy = true) (v : Word) :
    registerWrite r v s = .next s.ignoreWrite := by
  simp [registerWrite, h, hr, hb]

theorem registerWrite_idle (h : r.access = .readWrite) (hb : s.status.busy = false) (v : Word) :
    registerWrite r v s = .next (s.writeReg r v) := by
  simp [registerWrite, h, hb]

/-- IRQ_EN is written BUSY or not (R49). -/
theorem registerWrite_irqEn (v : Word) (s : State) :
    registerWrite .irqEn v s = .next { s with irqEn := IrqEn.ofWord v } := by
  simp [registerWrite, Reg.access, State.writeReg]

theorem cmdWrite_busy (hb : s.status.busy = true) (w : Word) : cmdWrite w s = .next s.ignoreWrite := by
  simp [cmdWrite, hb]

theorem registerWrite_cmd (v : Word) (s : State) : registerWrite .cmd v s = cmdWrite v s := rfl

theorem cmdWrite_ne_refused (w : Word) (s : State) (e : Refusal) : cmdWrite w s ≠ .refused e := by
  rcases cmdWrite_cases w s with ⟨-, he⟩ | ⟨-, -, he⟩ | ⟨-, -, he⟩ <;> rw [he]
  · exact nofun
  · rw [exec_clear]
    exact nofun
  · exact nofun

theorem registerWrite_ne_refused (r : Reg) (v : Word) (s : State) (e : Refusal) : registerWrite r v s ≠ .refused e := by
  rcases registerWrite_cases r v s with ⟨-, he⟩ | ⟨-, he⟩ | ⟨-, -, -, he⟩ | ⟨-, -, he⟩ <;> rw [he]
  · exact nofun
  · exact cmdWrite_ne_refused v s e
  · exact nofun
  · exact nofun

/-- The lockable offsets hold configuration registers other than IRQ_EN, and CMD is the other register a write while BUSY
is dropped at (R63). -/
theorem lockedOffsets_spec : ∀ o ∈ lockedOffsets.map Prod.fst,
    ∃ p ∈ registerMap, p.1 = o ∧ p.2.access = .readWrite ∧ p.2 ≠ .irqEn := by decide

/-! ### What a configuration register reads as after a write -/

/-- The bits a configuration register has (R49 to R58). -/
def Reg.bits : Reg → Word
  | .irqEn => 0x00000003#32
  | .format => 0x0000011F#32
  | .srcDim | .dstDim => 0x7FFF7FFF#32
  | _ => 0xFFFFFFFF#32

/-- The writable offsets hold configuration registers, with the bits the statement lists (R49 to R58). -/
theorem writableOffsets_spec : ∀ c ∈ writableOffsets,
    ∃ p ∈ registerMap, p.1 = c.1 ∧ p.2.access = .readWrite ∧ p.2.bits = c.2 := by decide

theorem IrqEn.toWord_ofWord (v : Word) : (IrqEn.ofWord v).toWord = v &&& 0x00000003#32 := by
  apply BitVec.eq_of_getLsbD_eq
  intro i hi
  unfold IrqEn.toWord IrqEn.ofWord
  rw [BitVec.getLsbD_append]
  simp only [BitVec.getLsbD_append, BitVec.getLsbD_ofBool, BitVec.getLsbD_and]
  interval_cases i <;> simp

theorem FormatReg.toWord_ofWord (v : Word) : (FormatReg.ofWord v).toWord = v &&& 0x0000011F#32 := by
  apply BitVec.eq_of_getLsbD_eq
  intro i hi
  unfold FormatReg.toWord FormatReg.ofWord
  rw [BitVec.getLsbD_append]
  simp only [BitVec.getLsbD_append, BitVec.getLsbD_extractLsb', BitVec.getLsbD_and]
  interval_cases i <;> simp

theorem Dim.toWord_ofWord (v : Word) : (Dim.ofWord v).toWord = v &&& 0x7FFF7FFF#32 := by
  apply BitVec.eq_of_getLsbD_eq
  intro i hi
  unfold Dim.toWord Dim.ofWord
  rw [BitVec.getLsbD_append]
  simp only [BitVec.getLsbD_append, BitVec.getLsbD_extractLsb', BitVec.getLsbD_and, Config.dimBits]
  interval_cases i <;> simp

/-- A configuration register reads back as the written word with its reserved bits 0 (R36). -/
theorem State.readReg_writeReg_same (h : r.access = .readWrite) (v : Word) (s : State) :
    (s.writeReg r v).readReg r = v &&& r.bits := by
  cases r with
  | irqEn => exact IrqEn.toWord_ofWord v
  | format => exact FormatReg.toWord_ofWord v
  | srcDim | dstDim => exact Dim.toWord_ofWord v
  | srcBase | srcSize | dstBase | dstSize | scrBase | scrSize => exact (BitVec.and_allOnes (x := v)).symm
  | _ => cases h

/-- A write to a register changes what no other register reads as. -/
theorem State.readReg_writeReg_other {q : Reg} (h : q ≠ r) (v : Word) (s : State) :
    (s.writeReg r v).readReg q = s.readReg q := by
  cases r with
  | irqEn | format | srcDim | dstDim | srcBase | srcSize | dstBase | dstSize | scrBase | scrSize =>
    cases q <;> simp [State.writeReg, State.readReg, State.planeRegs] at h ⊢
  | _ => rfl

/-! ### A read of a register -/

theorem registerRead_stored (hr : r ≠ .status) (h : (r.isResult && s.status.busy) = false) :
    registerRead r s = .next (s.answer (s.readReg r)) := by
  unfold registerRead
  split
  · exact absurd rfl hr
  · simp [h]

theorem registerRead_result (hr : r.isResult = true) (hb : s.status.busy = true) :
    registerRead r s = .next (s.answer (Config.drawWord s.draws)).drawn := by
  unfold registerRead
  split
  · cases hr
  · simp [hr, hb]

theorem registerRead_status_fault (h : neverRaised s.status.errcode = true) :
    registerRead .status s = .fault (.impossibleErrorCode s.status.errcode) := by
  simp [registerRead, h]

theorem registerRead_status_run (h : neverRaised s.status.errcode = false)
    (hrun : (s.status.busy && s.runInFlight) = true) :
    registerRead .status s = .next (s.answer (s.status.toWordWith s.seqOfRun)).drawn := by
  simp [registerRead, h, hrun]

theorem registerRead_status_stored (h : neverRaised s.status.errcode = false)
    (hrun : (s.status.busy && s.runInFlight) = false) :
    registerRead .status s = .next (s.answer (s.readReg .status)) := by
  simp [registerRead, h, hrun, State.readReg]

/-- What SEQ of a RUN in flight may read as (R45). -/
theorem State.seqOfRun_cases (s : State) : s.seqOfRun = 1#2 ∨ s.seqOfRun = 2#2 ∧ s.format.interlaced = true := by
  unfold State.seqOfRun
  split
  · rename_i h
    rw [Bool.and_eq_true] at h
    exact .inr ⟨rfl, h.1⟩
  · exact .inl rfl

theorem registerRead_ne_refused (r : Reg) (s : State) (e : Refusal) : registerRead r s ≠ .refused e := by
  rcases registerRead_cases r s with ⟨-, -, he⟩ | ⟨v, he | he⟩ <;> rw [he] <;> exact nofun

/-! ### The obligations of the window -/

/-- Settles O8: each offset holds CMD, a lockable register or IRQ_EN. -/
theorem writesWhileBusyAreDropped : Obligations.WritesWhileBusyAreDropped := by
  unfold Obligations.WritesWhileBusyAreDropped
  intro s v hb
  refine ⟨fun o ho => ?_, ?_⟩
  · rcases List.mem_cons.1 ho with rfl | ho
    · have hcmd : (0x008, Reg.cmd) ∈ registerMap := by decide
      rw [after_write hcmd, registerWrite_cmd, cmdWrite_busy hb]
      rfl
    · obtain ⟨⟨_, r⟩, hp, rfl, hacc, hne⟩ := lockedOffsets_spec o ho
      rw [after_write hp, registerWrite_locked hacc hne hb]
      rfl
  · have hirq : (0x00C, Reg.irqEn) ∈ registerMap := by decide
    exact (after_write hirq v s).trans (registerWrite_irqEn v s)

theorem after_write_idle (h : (o, r) ∈ registerMap) (hacc : r.access = .readWrite) (hb : s.status.busy = false)
    (v : Word) : after (.regWrite 4 (o : Int) v) s = .next (s.writeReg r v) := by
  rw [after_write h, registerWrite_idle hacc hb]

/-- Settles O9: the field each write changes, register by register, and the read-back through the register map. -/
theorem configurationWritesReadBack : Obligations.ConfigurationWritesReadBack := by
  unfold Obligations.ConfigurationWritesReadBack
  intro s v hb
  have write : ∀ (o : Nat) (r : Reg), (o, r) ∈ registerMap → r.access = .readWrite →
      after (.regWrite 4 (o : Int) v) s = .next (s.writeReg r v) := fun o r h hacc => after_write_idle h hacc hb v
  refine ⟨⟨write 0x00C .irqEn (by decide) rfl, write 0x010 .format (by decide) rfl,
    write 0x014 .srcDim (by decide) rfl, write 0x018 .dstDim (by decide) rfl, write 0x01C .srcBase (by decide) rfl,
    write 0x020 .srcSize (by decide) rfl, write 0x024 .dstBase (by decide) rfl, write 0x028 .dstSize (by decide) rfl,
    write 0x02C .scrBase (by decide) rfl, write 0x030 .scrSize (by decide) rfl⟩, fun o mask ho => ?_⟩
  obtain ⟨⟨_, r⟩, hp, rfl, hacc, rfl⟩ := writableOffsets_spec _ ho
  obtain ⟨hr, -, -⟩ := registerMap_spec _ hp
  obtain ⟨hst, hcur, -, hm⟩ := State.writeReg_frame r v s
  exact ⟨s.writeReg r v, r, write _ r hp hacc, hr, State.readReg_writeReg_same hacc v s,
    fun q hq => State.readReg_writeReg_other hq v s, hm, hcur, hst⟩

/-- Settles O10: a read-only offset holds a read-only register, an unlisted one none. -/
theorem unlistedAndReadOnlyWritesHaveNoEffect : Obligations.UnlistedAndReadOnlyWritesHaveNoEffect := by
  unfold Obligations.UnlistedAndReadOnlyWritesHaveNoEffect
  intro s v o hlt h4
  refine ⟨?_, fun h => after_read_unlisted hlt h4 h s⟩
  rintro (h | h)
  · obtain ⟨⟨_, r⟩, hp, rfl, hacc⟩ := readOnlyOffsets_spec o h
    rw [after_write hp, registerWrite_readOnly hacc]
  · exact after_write_unlisted hlt h4 h v s

/-- Settles O11: an access is refused by its offset and width alone, and no register refuses one. -/
theorem onlyAlignedWordAccessesAreAdmitted : Obligations.OnlyAlignedWordAccessesAreAdmitted := by
  unfold Obligations.OnlyAlignedWordAccessesAreAdmitted
  intro s bytes offset v
  refine ⟨fun h => ?_, ?_⟩
  · simp only [after_eq_hostStep, hostStep, windowWrite, windowRead, admittedOffset_none h, and_self]
  · rintro ⟨rfl, h0, hlt, h4⟩ e
    obtain ⟨o, rfl⟩ := Int.eq_ofNat_of_zero_le h0
    have hadm : admittedOffset 4 (o : Int) = some o := admittedOffset_word (by omega) (by omega)
    simp only [after_eq_hostStep, hostStep, windowWrite, windowRead, hadm]
    cases Reg.ofOffset o with
    | none => exact ⟨nofun, nofun⟩
    | some r => exact ⟨registerWrite_ne_refused r v s e, registerRead_ne_refused r s e⟩

/-- Settles O13: the register at each offset is STATUS, a result register or another one, which reads as stored. -/
theorem resultReadsWhileBusyAreFree : Obligations.ResultReadsWhileBusyAreFree := by
  unfold Obligations.ResultReadsWhileBusyAreFree
  intro s o v hv
  rw [registerWords_eq] at hv
  obtain ⟨⟨o, r⟩, hp, hov⟩ := List.mem_map.1 hv
  cases hov
  obtain ⟨hr, -, -⟩ := registerMap_spec _ hp
  obtain ⟨hstatus, hresult⟩ := registerMap_kind _ hp
  dsimp only at hr hstatus hresult ⊢
  rw [after_read hp, ne_eq, hstatus, hresult]
  refine ⟨⟨r, hr, rfl⟩, fun hb hres => registerRead_result hres hb, ?_, ?_, ?_, ?_, ?_⟩
  · rintro hb hrun hcode rfl
    exact ⟨s.seqOfRun, s.seqOfRun_cases, registerRead_status_run hcode (by simp [hb, hrun])⟩
  · rintro hb hrun hcode rfl
    exact registerRead_status_stored hcode (by simp [hrun])
  · intro _ hne hres
    exact registerRead_stored hne (by simp [hres])
  · intro hb hor
    by_cases hst : r = .status
    · subst hst
      exact registerRead_status_stored (hor.resolve_left (not_not.2 rfl)) (by simp [hb])
    · exact registerRead_stored hst (by simp [hb])
  · rintro rfl hcode
    exact registerRead_status_fault hcode

end Sys2Proof.Machine
end

section
/-! SUPPORT. The word of STATUS, the reset state and EFFM (spec 10_state.md R39, R46, R68; 44_chroma_dispatch.md R250). -/

namespace Sys2Proof.Machine

open Sys2Proof.Claims

/-- Settles O12: each field lies at its own bits of the concatenation. -/
theorem statusWordFields : Obligations.StatusWordFields := by
  unfold Obligations.StatusWordFields Status.toWord Status.toWordWith
  intro st
  refine ⟨?flags, ?reserved, ?errcode, ?seq, ?effm, ?lastOp, ?high⟩
  case flags =>
    rw [BitVec.getLsbD_append, BitVec.getLsbD_append, BitVec.getLsbD_append, BitVec.getLsbD_append]
    simp only [BitVec.getLsbD_append]
    simp
  all_goals
    rw [BitVec.extractLsb'_append_eq_of_le (by decide)]
    simp (disch := decide) only [BitVec.extractLsb'_append_eq_of_le, BitVec.extractLsb'_append_eq_of_add_le,
      BitVec.extractLsb'_eq_self, Nat.reduceSub]

/-- Every plane's registers are 0 after reset (R61). -/
theorem planeRegs_reset (p : Fin 3) : State.reset.planeRegs p = PlaneRegs.zero := by
  simp [State.planeRegs, State.reset]

theorem PlaneRegs.get_zero (r : PlaneReg) : PlaneRegs.zero.get r = 0#32 := by
  cases r <;> rfl

theorem readReg_reset (r : Reg) : State.reset.readReg r = if r = .id then 0x56534331#32 else 0#32 := by
  cases r with
  | lPlane p r => simp [State.readReg, planeRegs_reset, PlaneRegs.get_zero]
  | _ => decide

/-- Settles O18, register by register. -/
theorem resetState : Obligations.ResetState :=
  ⟨readReg_reset, rfl, rfl, fun _ => rfl⟩

/-! ### The effective method -/

variable (method : Method) (role : BitVec 2) (field : Field) (s : State)

theorem completeScale_effm (isRun : Bool) (plan : Except ErrorCode Plan) :
    (s.completeScale method isRun plan).status.effm = (s.effMethod method).code := by
  cases plan <;> rfl

/-- A role code has a role exactly when it is not the reserved one (R124). -/
theorem Role.ofCode_isSome (c : BitVec 2) : (Role.ofCode c).isSome = roleAllowed c := by
  revert c
  decide

/-- EFFM after a SCALE_PLANE: recorded exactly when its decode check passes (R46, R314). -/
theorem scalePlane_effm : (scalePlane method role field s).status.effm =
    if (roleAllowed role && fieldAllowed s.format.interlaced field) = true then (s.effMethod method).code
    else s.status.effm := by
  rw [← Role.ofCode_isSome]
  unfold scalePlane
  cases Role.ofCode role with
  | none => simp
  | some r =>
    cases fieldAllowed s.format.interlaced field
    · simp
    · simp [completeScale_effm]

theorem run_effm : (run method s).status.effm = (s.effMethod method).code := completeScale_effm ..

/-- A method is downgraded exactly when it is 4TAP and the source frame is lower than 4 rows (R250). -/
theorem effMethod_eq : s.effMethod method = if method = .fourTap ∧ s.srcDim.h.toNat < 4 then .bilinear else method := by
  cases method with
  | nearest | bilinear => simp [State.effMethod]
  | fourTap => by_cases h : s.srcDim.h.toNat < 4 <;> simp [State.effMethod, h]

/-- No command but SCALE_PLANE and RUN writes EFFM (R46). -/
theorem exec_effm_of_not_scale {i : Instr} {t : State} (hi : isScale i = false) (h : exec i s = .next t) :
    t.status.effm = s.status.effm := by
  cases i with
  | nop =>
    rw [exec_nop] at h
    cases h
    rfl
  | layout sel =>
    rw [exec_layout] at h
    rcases execLayout_cases sel s with ⟨_, -, he⟩ | ⟨_, -, he⟩ <;> (rw [he] at h; cases h; rfl)
  | locate sel role field =>
    rw [exec_locate] at h
    rcases execLocate_cases sel role field s with ⟨_, -, he⟩ | ⟨_, -, he⟩ <;> (rw [he] at h; cases h; rfl)
  | clear =>
    rw [exec_clear] at h
    cases h
    rfl
  | _ => cases hi

/-- The three RUN commands are the RUN of their method (R290 to R292). -/
theorem exec_runForms {i : Instr} (h : (i, method) ∈ runForms) : exec i s = .next (run method s) := by
  simp only [runForms, List.mem_cons, Prod.mk.injEq, List.not_mem_nil, or_false] at h
  rcases h with ⟨rfl, rfl⟩ | ⟨rfl, rfl⟩ | ⟨rfl, rfl⟩
  · exact exec_runNearest s
  · exact exec_runBilinear s
  · exact exec_runFourTap s

/-- The three SCALE_PLANE commands are the SCALE_PLANE of their method, with one decode check (R280 to R282, R127). -/
theorem exec_planeForms {i : Instr} (h : (i, method) ∈ planeForms role field) :
    exec i s = .next (scalePlane method role field s) ∧
      ∀ il, i.legal il = (roleAllowed role && fieldAllowed il field) := by
  simp only [planeForms, List.mem_cons, Prod.mk.injEq, List.not_mem_nil, or_false] at h
  rcases h with ⟨rfl, rfl⟩ | ⟨rfl, rfl⟩ | ⟨rfl, rfl⟩
  · exact ⟨exec_scalePlaneNearest role field s, fun _ => rfl⟩
  · exact ⟨exec_scalePlaneBilinear role field s, fun _ => rfl⟩
  · exact ⟨exec_scalePlaneFourTap role field s, fun _ => rfl⟩

/-- Settles O45: every RUN and every SCALE_PLANE past its decode check records the method, and nothing else does. -/
theorem effectiveMethodIsRecorded : Obligations.EffectiveMethodIsRecorded := by
  unfold Obligations.EffectiveMethodIsRecorded
  refine ⟨fun s m => effMethod_eq m s, ?_, ?_, fun i s t hi h => exec_effm_of_not_scale s hi h⟩
  · intro i m s t hi h
    rw [exec_runForms m s hi] at h
    cases h
    exact run_effm m s
  · intro role field i m s t hi h
    obtain ⟨he, hlegal⟩ := exec_planeForms m role field s hi
    rw [he] at h
    cases h
    rw [hlegal]
    exact scalePlane_effm m role field s

end Sys2Proof.Machine
end

section
/-! SUPPORT. What memory holds after a list of byte writes, and samples of one and two bytes (spec 20_memory.md R84,
R89; 44_chroma_dispatch.md R249). -/

namespace Sys2Proof.Machine

/-! ### Byte writes one after another -/

/-- A written address holds the value of one of its cells, whatever memory held before. -/
theorem Memory.get?_writeAll_written {cells : List Host.Cell} {a : Nat} (h : a ∈ cells.map Prod.fst) :
    ∃ v, (a, v) ∈ cells ∧ ∀ m : Memory, (m.writeAll cells).get? a = some v := by
  induction cells with
  | nil => cases h
  | cons c cs ih =>
    by_cases hcs : a ∈ cs.map Prod.fst
    · obtain ⟨v, hv, hget⟩ := ih hcs
      exact ⟨v, List.mem_cons_of_mem _ hv, fun m => hget _⟩
    · obtain rfl : a = c.1 := (List.mem_cons.1 h).resolve_right hcs
      exact ⟨c.2, List.mem_cons_self, fun m => by
        rw [Memory.writeAll_cons, Memory.get?_writeAll_other hcs, Memory.get?_write8_same]⟩

/-- A free byte that was written is the draw of its address. -/
theorem Memory.get?_writeAll_drawnCells {n a : Nat} {addrs : List Nat} (h : a ∈ addrs) (m : Memory) :
    (m.writeAll (drawnCells n addrs)).get? a = some (Config.drawByte n a) := by
  obtain ⟨v, hv, hget⟩ := Memory.get?_writeAll_written (cells := drawnCells n addrs) (a := a) (by simpa using h)
  obtain ⟨b, -, hb⟩ := List.mem_map.1 hv
  cases hb
  exact hget m

/-! ### Samples -/

/-- What memory holds where the two bytes of a 16-bit sample stand (R84). -/
theorem Memory.get?_of_cells16 {be : Bool} {m : Memory} {a v : Nat}
    (h : ∀ c ∈ cells16 be a v, m.get? c.1 = some c.2) :
    m.read8 a = BitVec.ofNat 8 (if be then v / 256 else v) ∧
      m.read8 (a + 1) = BitVec.ofNat 8 (if be then v else v / 256) := by
  unfold cells16 at h
  cases be <;> simp only [Bool.false_eq_true, if_false, if_true, List.forall_mem_cons] at h ⊢ <;>
    exact ⟨Memory.read8_of_get? h.1, Memory.read8_of_get? h.2.1⟩

/-- A 16-bit sample reads as the value its two bytes were written with (R84). -/
theorem Memory.read16_of_cells16 {be : Bool} {m : Memory} {a v : Nat} (hv : v < 65536)
    (h : ∀ c ∈ cells16 be a v, m.get? c.1 = some c.2) : m.read16 be a = v := by
  obtain ⟨h0, h1⟩ := Memory.get?_of_cells16 h
  unfold Memory.read16
  rw [h0, h1]
  cases be <;> simp <;> omega

/-- The bytes of a sample are distinct. -/
theorem SampleUnit.cells_nodup (u : SampleUnit) (be : Bool) (a v : Nat) : ((u.cells be a v).map Prod.fst).Nodup := by
  rw [SampleUnit.cells_addrs]
  exact List.nodup_range.map fun _ _ => Nat.add_left_cancel

/-- A sample reads as the value its bytes were written with (R249). -/
theorem SampleUnit.read_of_cells {u : SampleUnit} {be : Bool} {m : Memory} {a v : Nat} (hv : v < 2 ^ (8 * u.bytes))
    (h : ∀ c ∈ u.cells be a v, m.get? c.1 = some c.2) : u.read be m a = v := by
  unfold SampleUnit.cells at h
  unfold SampleUnit.bytes at hv
  unfold SampleUnit.read
  cases hw : u.wide
  · simp only [hw, Bool.false_eq_true, if_false, cells8, List.forall_mem_cons] at h hv ⊢
    rw [Memory.read8_of_get? h.1, BitVec.toNat_ofNat]
    exact Nat.mod_eq_of_lt hv
  · simp only [hw, if_true] at h hv ⊢
    exact Memory.read16_of_cells16 hv h

/-- A sample depends on its own bytes only (R89). -/
theorem SampleUnit.read_congr {u : SampleUnit} {be : Bool} {m m' : Memory} {a : Nat}
    (h : ∀ k < u.bytes, m.read8 (a + k) = m'.read8 (a + k)) : u.read be m a = u.read be m' a := by
  unfold SampleUnit.bytes at h
  unfold SampleUnit.read
  cases hw : u.wide
  · simp only [hw, Bool.false_eq_true, if_false] at h ⊢
    rw [show m.read8 a = m'.read8 a from h 0 Nat.one_pos]
  · simp only [hw, if_true] at h ⊢
    unfold Memory.read16
    rw [show m.read8 a = m'.read8 a from h 0 Nat.two_pos, h 1 Nat.one_lt_two]

/-- Settles O14, from what the two written bytes hold. -/
theorem sample16ByteOrder : Obligations.Sample16ByteOrder := by
  unfold Obligations.Sample16ByteOrder
  refine ⟨rfl, fun m a => ⟨rfl, Nat.add_comm _ _⟩, fun be m a v hv => ?_⟩
  have hcells : ∀ c ∈ cells16 be a v, (m.writeAll (cells16 be a v)).get? c.1 = some c.2 := fun c hc =>
    Memory.get?_writeAll_of_mem ((wordUnit []).cells_nodup be a v) hc m
  obtain ⟨h0, h1⟩ := Memory.get?_of_cells16 hcells
  refine ⟨Memory.read16_of_cells16 hv hcells, ?first, ?second, fun b ha hb => ?other⟩
  case first => rw [h0]; cases be <;> simp; omega
  case second => rw [h1]; cases be <;> simp; omega
  case other =>
    refine Memory.read8_congr (Memory.get?_writeAll_other ?_ m)
    have haddrs : (cells16 be a v).map Prod.fst = (List.range 2).map (a + ·) := (wordUnit []).cells_addrs be a v
    rw [haddrs]
    simpa [List.range_succ] using ⟨ha, hb⟩

end Sys2Proof.Machine
end

section
/-! SUPPORT. Where the samples of a frame lie: the planes of a layout one after another, the rows of a plane in each
field, and the sample bytes of a row (spec 41_geometry.md R142 to R158; 42_plane_locator.md R181, R182;
44_chroma_dispatch.md R241, R245, R248). -/

namespace Sys2Proof.Machine

variable {fmt : Format} {w h base : Nat} {g g' : PlaneGeom} {field field' : Field} {il : Bool}

/-! ### The planes of a layout -/

/-- A laid-out plane is a row of the table with an offset (R149). -/
theorem mem_placePlanes {o : Nat} {rows : List PlaneRow} (hg : g ∈ placePlanes o rows) :
    ∃ r ∈ rows, g.role = r.role ∧ g.w = r.w ∧ g.h = r.h ∧ g.ah = r.ah ∧ g.stride = r.stride := by
  induction rows generalizing o with
  | nil => cases hg
  | cons r rs ih =>
    rcases List.mem_cons.1 hg with rfl | hg
    · exact ⟨r, List.mem_cons_self, rfl, rfl, rfl, rfl, rfl⟩
    · obtain ⟨q, hq, heq⟩ := ih hg
      exact ⟨q, List.mem_cons_of_mem _ hq, heq⟩

theorem length_placePlanes (o : Nat) (rows : List PlaneRow) : (placePlanes o rows).length = rows.length := by
  induction rows generalizing o with
  | nil => rfl
  | cons r rs ih => simp [placePlanes, ih]

theorem map_role_placePlanes (o : Nat) (rows : List PlaneRow) :
    (placePlanes o rows).map PlaneGeom.role = rows.map PlaneRow.role := by
  induction rows generalizing o with
  | nil => rfl
  | cons r rs ih => simp [placePlanes, ih]

/-- Planes lie between the first offset and the total (R149). -/
theorem placePlanes_bounds {o : Nat} {rows : List PlaneRow} (hg : g ∈ placePlanes o rows) :
    o ≤ g.offset ∧ g.offset + g.size ≤ o + Layout.total (placePlanes o rows) := by
  induction rows generalizing o with
  | nil => cases hg
  | cons r rs ih =>
    have htotal : Layout.total (placePlanes o (r :: rs)) =
        r.stride * r.ah + Layout.total (placePlanes (o + r.stride * r.ah) rs) := rfl
    rw [htotal]
    rcases List.mem_cons.1 hg with rfl | hg
    · exact ⟨Nat.le_refl _, by simp only [PlaneGeom.size]; omega⟩
    · obtain ⟨h1, h2⟩ := ih hg
      omega

/-- Each plane ends before the next one starts (R149, R158). -/
theorem placePlanes_ordered (o : Nat) (rows : List PlaneRow) :
    (placePlanes o rows).Pairwise fun g g' => g.offset + g.size ≤ g'.offset := by
  induction rows generalizing o with
  | nil => exact List.Pairwise.nil
  | cons r rs ih => exact List.pairwise_cons.2 ⟨fun g' hg' => (placePlanes_bounds hg').1, ih _⟩

/-- A plane lies inside its frame's bytes (R149). -/
theorem layout_size_le_total (hg : g ∈ layout fmt w h) : g.offset + g.size ≤ (layout fmt w h).total := by
  have hb := (placePlanes_bounds hg).2
  rwa [Nat.zero_add] at hb

/-- Two planes of a layout are the same or have no byte in common (R158). -/
theorem layout_disjoint (hg : g ∈ layout fmt w h) (hg' : g' ∈ layout fmt w h) :
    g = g' ∨ g.offset + g.size ≤ g'.offset ∨ g'.offset + g'.size ≤ g.offset := by
  have hord := placePlanes_ordered 0 (planeRows fmt w h)
  exact (hord.imp fun h => .inr (.inl h)).forall_of_forall_of_flip
    (R := fun g g' => g = g' ∨ g.offset + g.size ≤ g'.offset ∨ g'.offset + g'.size ≤ g.offset)
    (fun _ _ => .inl rfl) (hord.imp fun h => .inr (.inr h)) hg hg'

/-- The planes of a format have the same roles in every frame (R148). -/
theorem layout_roles (fmt : Format) (w h : Nat) :
    (layout fmt w h).map PlaneGeom.role = (planeRows fmt 0 0).map PlaneRow.role := by
  rw [layout, map_role_placePlanes]
  unfold planeRows planarRows
  cases fmt.layoutClass <;> rfl

/-- A format has the same number of planes in every frame. -/
theorem length_layout (fmt : Format) (w h w' h' : Nat) : (layout fmt w h).length = (layout fmt w' h').length := by
  have hlen := congrArg List.length ((layout_roles fmt w h).trans (layout_roles fmt w' h').symm)
  simpa using hlen

/-- No two planes of a layout carry the same role (R148). -/
theorem layout_roles_nodup (fmt : Format) (w h : Nat) : ((layout fmt w h).map PlaneGeom.role).Nodup := by
  rw [layout_roles]
  cases fmt <;> decide

theorem layout_nodup (fmt : Format) (w h : Nat) : (layout fmt w h).Nodup := (layout_roles_nodup fmt w h).of_map

/-- A layout's plane is the one its role finds (R183). -/
theorem layout_planeOf (hg : g ∈ layout fmt w h) : (layout fmt w h).planeOf g.role = some g := by
  unfold Layout.planeOf
  cases hf : (layout fmt w h).find? fun q => q.role == g.role with
  | none => simpa using List.find?_eq_none.1 hf g hg
  | some q =>
    have hq : q.role = g.role := by simpa using List.find?_some hf
    rw [List.inj_on_of_nodup_map (layout_roles_nodup fmt w h) (List.mem_of_find?_eq_some hf) hg hq]

/-- A plane the locator finds is one of the layout, with the role asked for (R183). -/
theorem mem_of_planeOf {l : Layout} {role : Role} (hp : l.planeOf role = some g) : g ∈ l ∧ g.role = role :=
  ⟨List.mem_of_find?_eq_some hp, by simpa using List.find?_some hp⟩

/-- Every plane has room for its logical rows (R146). -/
theorem layout_h_le_ah (hg : g ∈ layout fmt w h) : g.h ≤ g.ah := by
  obtain ⟨r, hr, -, -, hh, hah, -⟩ := mem_placePlanes hg
  have rows : ∀ r ∈ planeRows fmt w h, r.h ≤ r.ah := by
    unfold planeRows planarRows
    cases fmt.layoutClass <;> simp [roundUp, ceilDiv]
    omega
  rw [hh, hah]
  exact rows r hr

/-- No plane of a frame with pixels is empty in width (R144). -/
theorem layout_one_le_w (hw : 1 ≤ w) (hg : g ∈ layout fmt w h) : 1 ≤ g.w := by
  obtain ⟨r, hr, -, hgw, -⟩ := mem_placePlanes hg
  have rows : ∀ r ∈ planeRows fmt w h, 1 ≤ r.w := by
    unfold planeRows planarRows
    cases fmt.layoutClass <;> simp [ceilDiv] <;> omega
  rw [hgw]
  exact rows r hr

/-! ### The sample bytes of a row -/

/-- Every sample of a row of `w` pixels ends within `stride` bytes. -/
def UnitsFit (units : List SampleUnit) (w stride : Nat) : Prop :=
  ∀ u ∈ units, ∀ x < u.width w, u.pitch * x + u.offset + u.bytes ≤ stride

/-- A sample lies within the distance to the next one (R241, R245). -/
theorem unitsOf_end_le_pitch {u : SampleUnit} (hu : u ∈ unitsOf fmt) : u.offset + u.bytes ≤ u.pitch := by
  have units : ∀ fmt, ∀ u ∈ unitsOf fmt, u.offset + u.bytes ≤ u.pitch := fun fmt => by cases fmt <;> decide
  exact units fmt u hu

/-- A stride holds the samples of a row of each kind (R142, R246). -/
theorem planeRows_width_le_stride {r : PlaneRow} (hr : r ∈ planeRows fmt w h) {u : SampleUnit} (hu : u ∈ unitsOf fmt) :
    u.pitch * u.width r.w ≤ r.stride := by
  revert u
  unfold planeRows planarRows at hr
  cases fmt with
  | rgba | argb | bgra | abgr | rgbx | xrgb | bgrx | xbgr | ayuv | v308 | rgb | bgr | gray8 | gray16 | rgb565 | rgb555
  | yuy2 | yvyu | uyvy =>
    obtain rfl := List.mem_singleton.1 hr
    simp [unitsOf, units422, byteUnit, wordUnit, SampleUnit.width, roundUp, ceilDiv] <;> omega
  | y444 | y42b | i420 | yv12 | y41b =>
    simp only [Format.layoutClass, List.mem_cons, List.not_mem_nil, or_false] at hr
    rcases hr with rfl | rfl | rfl <;> simp [unitsOf, byteUnit, SampleUnit.width, roundUp, ceilDiv] <;> omega

/-- The samples of every plane fit in its stride (R142, R241, R245). -/
theorem layout_unitsFit (hg : g ∈ layout fmt w h) : UnitsFit (unitsOf fmt) g.w g.stride := by
  obtain ⟨r, hr, -, hgw, -, -, hgs⟩ := mem_placePlanes hg
  rw [hgw, hgs]
  intro u hu x hx
  have hend := unitsOf_end_le_pitch hu
  have hrow := planeRows_width_le_stride hr hu
  have hnext : u.pitch * (x + 1) ≤ u.pitch * u.width r.w := Nat.mul_le_mul_left _ hx
  rw [Nat.mul_add] at hnext
  omega

/-- Quotient and remainder are unique. -/
theorem mul_add_injective {n q q' b b' : Nat} (hb : b < n) (hb' : b' < n) (h : n * q + b = n * q' + b') :
    q = q' ∧ b = b' := by
  have hn : 0 < n := Nat.zero_lt_of_lt hb
  constructor
  · simpa [Nat.mul_add_div hn, Nat.div_eq_of_lt hb, Nat.div_eq_of_lt hb'] using congrArg (· / n) h
  · simpa [Nat.mul_add_mod, Nat.mod_eq_of_lt hb, Nat.mod_eq_of_lt hb'] using congrArg (· % n) h

/-- Two sequences of samples in one row are byte sequences whose offsets differ modulo what both pitches are multiples
of (R241, R245). -/
theorem unitsOf_offsets {u v : SampleUnit} (hu : u ∈ unitsOf fmt) (hv : v ∈ unitsOf fmt) (hne : u ≠ v) :
    u.bytes = 1 ∧ v.bytes = 1 ∧ u.offset % Nat.gcd u.pitch v.pitch ≠ v.offset % Nat.gcd u.pitch v.pitch := by
  have units : ∀ fmt, ∀ u ∈ unitsOf fmt, ∀ v ∈ unitsOf fmt, u ≠ v →
      u.bytes = 1 ∧ v.bytes = 1 ∧ u.offset % Nat.gcd u.pitch v.pitch ≠ v.offset % Nat.gcd u.pitch v.pitch := fun fmt => by
    cases fmt <;> decide
  exact units fmt u hu v hv hne

/-- No two samples of a row share a byte, and the bytes of a sample are distinct (R241, R245). -/
theorem unitsOf_bytes_injective {u v : SampleUnit} {x y k l : Nat} (hu : u ∈ unitsOf fmt) (hv : v ∈ unitsOf fmt)
    (hk : k < u.bytes) (hl : l < v.bytes) (heq : u.pitch * x + u.offset + k = v.pitch * y + v.offset + l) :
    u = v ∧ x = y ∧ k = l := by
  have hpu := unitsOf_end_le_pitch hu
  by_cases huv : u = v
  · subst huv
    exact ⟨rfl, mul_add_injective (n := u.pitch) (by omega) (by omega) (by omega)⟩
  · obtain ⟨hbu, hbv, hoff⟩ := unitsOf_offsets hu hv huv
    obtain ⟨p, hp⟩ := Nat.gcd_dvd_left u.pitch v.pitch
    obtain ⟨q, hq⟩ := Nat.gcd_dvd_right u.pitch v.pitch
    have hsum : u.pitch * x + u.offset = v.pitch * y + v.offset := by omega
    have hmod := congrArg (· % Nat.gcd u.pitch v.pitch) hsum
    generalize Nat.gcd u.pitch v.pitch = d at hoff hp hq hmod
    rw [hp, hq, Nat.mul_assoc, Nat.mul_assoc] at hmod
    exact absurd (by simpa [Nat.mul_add_mod] using hmod) hoff

theorem unitsOf_nodup (fmt : Format) : (unitsOf fmt).Nodup := by
  cases fmt <;> decide

/-! ### The sample bytes of a plane in a field -/

/-- The sample positions of an effective plane (R248). -/
theorem SampleUnit.mem_positions {u : SampleUnit} {e : EffGeom} {p : Nat × Nat} :
    p ∈ u.positions e ↔ p.1 < u.width e.w ∧ p.2 < e.h := by
  obtain ⟨x, r⟩ := p
  simp only [SampleUnit.positions, List.mem_flatMap, List.mem_map, List.mem_range, Prod.mk.injEq]
  constructor
  · rintro ⟨_, hr, _, hx, rfl, rfl⟩
    exact ⟨hx, hr⟩
  · rintro ⟨hx, hr⟩
    exact ⟨r, hr, x, hx, rfl, rfl⟩

/-- A sample byte of an effective plane: its sample, and its place in the sample (R248). -/
theorem mem_sampleAddrs {units : List SampleUnit} {e : EffGeom} {a : Nat} :
    a ∈ sampleAddrs units e ↔ ∃ u ∈ units, ∃ x r k, x < u.width e.w ∧ r < e.h ∧ k < u.bytes ∧ a = u.addr e x r + k := by
  simp only [sampleAddrs, List.mem_flatMap, List.mem_map, List.mem_range, SampleUnit.mem_positions]
  constructor
  · rintro ⟨u, hu, p, ⟨hx, hr⟩, k, hk, rfl⟩
    exact ⟨u, hu, p.1, p.2, k, hx, hr, hk, rfl⟩
  · rintro ⟨u, hu, x, r, k, hx, hr, hk, rfl⟩
    exact ⟨u, hu, (x, r), ⟨hx, hr⟩, k, hk, rfl⟩

/-- The row of its plane that row `r` of a field is (R182). -/
def fieldRow (il : Bool) (field : Field) (r : Nat) : Nat := if il then 2 * r + field.bit.toNat else r

@[simp] theorem locate_w (g : PlaneGeom) (base : Nat) (field : Field) (il : Bool) : (locate g base field il).w = g.w := by
  unfold locate
  cases il <;> cases field <;> rfl

/-- A row of a field is a row of its plane (R181, R182). -/
theorem fieldRow_lt {r : Nat} (hr : r < (locate g base field il).h) : fieldRow il field r < g.h := by
  unfold locate at hr
  unfold fieldRow
  cases il <;> cases field <;> simp [ceilDiv, Field.bit] at hr ⊢ <;> omega

/-- A sample of a field lies in its plane's row (R181, R182, R186). -/
theorem addr_locate (u : SampleUnit) (x r : Nat) :
    u.addr (locate g base field il) x r = base + g.offset + fieldRow il field r * g.stride + (u.pitch * x + u.offset) := by
  unfold SampleUnit.addr locate fieldRow
  cases il <;> cases field <;> simp [Field.bit] <;> ring

/-- The stride of a field is at least the plane's (R182). -/
theorem stride_le_locate : g.stride ≤ (locate g base field il).stride := by
  unfold locate
  cases il <;> cases field <;> simp <;> omega

/-- A sample byte of a plane in a field stands in one of the plane's rows, of the field's parity on interlaced content
(R182). -/
theorem sampleByte_row {units : List SampleUnit} {a : Nat} (hfit : UnitsFit units g.w g.stride)
    (ha : a ∈ sampleAddrs units (locate g base field il)) :
    ∃ r b, r < g.h ∧ b < g.stride ∧ a = base + g.offset + (g.stride * r + b) ∧
      (il = true → r % 2 = field.bit.toNat) := by
  obtain ⟨u, hu, x, r, k, hx, hr, hk, rfl⟩ := mem_sampleAddrs.1 ha
  rw [locate_w] at hx
  have hend := hfit u hu x hx
  refine ⟨fieldRow il field r, u.pitch * x + u.offset + k, fieldRow_lt hr, by omega, ?_, ?_⟩
  · rw [addr_locate, Nat.mul_comm g.stride]
    omega
  · rintro rfl
    unfold fieldRow
    cases field <;> simp [Field.bit]

/-- A sample byte of a plane lies in the plane's bytes of the frame (R149, R186). -/
theorem sampleByte_bounds {a : Nat} (hg : g ∈ layout fmt w h)
    (ha : a ∈ sampleAddrs (unitsOf fmt) (locate g base field il)) :
    base + g.offset ≤ a ∧ a < base + g.offset + g.size := by
  obtain ⟨r, b, hr, hb, rfl, -⟩ := sampleByte_row (layout_unitsFit hg) ha
  have hrows : g.stride * (r + 1) ≤ g.stride * g.ah := Nat.mul_le_mul_left _ (hr.trans_le (layout_h_le_ah hg))
  rw [Nat.mul_add] at hrows
  unfold PlaneGeom.size
  omega

/-- A list of lists without repetition joins to one without when no two of them share an element. -/
theorem nodup_flatMap_of {α β : Type} {l : List α} {f : α → List β} (hl : l.Nodup) (hf : ∀ x ∈ l, (f x).Nodup)
    (hd : ∀ x ∈ l, ∀ y ∈ l, ∀ b, b ∈ f x → b ∈ f y → x = y) : (l.flatMap f).Nodup :=
  List.nodup_flatMap.2 ⟨hf, hl.imp_of_mem fun hx hy hne => fun b hb hb' => hne (hd _ hx _ hy b hb hb')⟩

theorem SampleUnit.positions_nodup (u : SampleUnit) (e : EffGeom) : (u.positions e).Nodup := by
  refine nodup_flatMap_of List.nodup_range (fun r _ => List.nodup_range.map fun x y hxy => (Prod.mk.inj hxy).1) ?_
  intro r _ r' _ p hp hp'
  obtain ⟨x, -, rfl⟩ := List.mem_map.1 hp
  obtain ⟨y, -, hxy⟩ := List.mem_map.1 hp'
  exact (Prod.mk.inj hxy).2.symm

/-- No two samples of a plane-field share a byte (R186, R241). -/
theorem addr_injective {u v : SampleUnit} {x y r q k l : Nat} (hg : g ∈ layout fmt w h) (hu : u ∈ unitsOf fmt)
    (hv : v ∈ unitsOf fmt) (hx : x < u.width g.w) (hy : y < v.width g.w) (hk : k < u.bytes) (hl : l < v.bytes)
    (heq : u.addr (locate g base field il) x r + k = v.addr (locate g base field il) y q + l) :
    u = v ∧ x = y ∧ r = q := by
  have hstride := stride_le_locate (g := g) (base := base) (field := field) (il := il)
  have hxe := layout_unitsFit hg u hu x hx
  have hye := layout_unitsFit hg v hv y hy
  unfold SampleUnit.addr at heq
  obtain ⟨hrow, hplace⟩ := mul_add_injective (n := (locate g base field il).stride)
    (q := r) (b := u.pitch * x + u.offset + k) (q' := q) (b' := v.pitch * y + v.offset + l)
    (by omega) (by omega) (by rw [Nat.mul_comm _ r, Nat.mul_comm _ q]; omega)
  obtain ⟨huv, hxy, -⟩ := unitsOf_bytes_injective hu hv hk hl hplace
  exact ⟨huv, hxy, hrow⟩

/-- The sample bytes of a plane-field are distinct (R248). -/
theorem sampleAddrs_nodup (hg : g ∈ layout fmt w h) : (sampleAddrs (unitsOf fmt) (locate g base field il)).Nodup := by
  have same : ∀ u ∈ unitsOf fmt, ∀ v ∈ unitsOf fmt, ∀ p ∈ u.positions (locate g base field il),
      ∀ q ∈ v.positions (locate g base field il), ∀ a,
      a ∈ (List.range u.bytes).map (u.addr (locate g base field il) p.1 p.2 + ·) →
      a ∈ (List.range v.bytes).map (v.addr (locate g base field il) q.1 q.2 + ·) → u = v ∧ p = q := by
    intro u hu v hv p hp q hq a ha ha'
    obtain ⟨hx, -⟩ := SampleUnit.mem_positions.1 hp
    obtain ⟨hy, -⟩ := SampleUnit.mem_positions.1 hq
    rw [locate_w] at hx hy
    simp only [List.mem_map, List.mem_range] at ha ha'
    obtain ⟨k, hk, rfl⟩ := ha
    obtain ⟨l, hl, heq⟩ := ha'
    obtain ⟨huv, hxy, hrq⟩ := addr_injective hg hu hv hx hy hk hl heq.symm
    exact ⟨huv, Prod.ext hxy hrq⟩
  refine nodup_flatMap_of (unitsOf_nodup fmt) (fun u hu => ?_) ?_
  · exact nodup_flatMap_of (u.positions_nodup _) (fun p _ => List.nodup_range.map fun _ _ => Nat.add_left_cancel)
      fun p hp q hq a ha ha' => (same u hu u hu p hp q hq a ha ha').2
  · intro u hu v hv a ha ha'
    obtain ⟨p, hp, ha⟩ := List.mem_flatMap.1 ha
    obtain ⟨q, hq, ha'⟩ := List.mem_flatMap.1 ha'
    exact (same u hu v hv p hp q hq a ha ha').1

/-- Two plane-fields of a frame that share a sample byte are the same plane, and on interlaced content in the same field
(R158, R182). -/
theorem sampleByte_unique {a : Nat} (hg : g ∈ layout fmt w h) (hg' : g' ∈ layout fmt w h)
    (ha : a ∈ sampleAddrs (unitsOf fmt) (locate g base field il))
    (ha' : a ∈ sampleAddrs (unitsOf fmt) (locate g' base field' il)) : g = g' ∧ (il = true → field = field') := by
  have hb := sampleByte_bounds hg ha
  have hb' := sampleByte_bounds hg' ha'
  have hgg : g = g' := (layout_disjoint hg hg').resolve_right (by omega)
  subst hgg
  refine ⟨rfl, fun hil => ?_⟩
  obtain ⟨r, b, -, hbs, rfl, hpar⟩ := sampleByte_row (layout_unitsFit hg) ha
  obtain ⟨r', b', -, hbs', heq, hpar'⟩ := sampleByte_row (layout_unitsFit hg) ha'
  obtain ⟨rfl, -⟩ := mul_add_injective hbs hbs' (Nat.add_left_cancel heq)
  have hbit : field.bit.toNat = field'.bit.toNat := (hpar hil).symm.trans (hpar' hil)
  cases field <;> cases field' <;> simp [Field.bit] at hbit ⊢

end Sys2Proof.Machine
end

section
/-! SUPPORT. The plan of a command: when it exists, which planes its work list names, where its bytes lie, and what the
command leaves with it and without it (spec 45_commands.md R271, R277 to R290; 60_exceptions.md R316; 20_memory.md R81,
R91, R92, R94). -/

namespace Sys2Proof.Machine

open Sys2Proof.Claims

variable {s t : State} {fmt : Format} {lsrc ldst : Layout} {work : List PlaneField} {p : Plan} {i : Instr} {a : Nat}
  {method : Method} {role : Role} {field : Field}

/-! ### The checks of a plan -/

theorem Region.overflows_eq_false (r : Region) : r.overflows = false ↔ r.base + r.size ≤ 2 ^ 32 := by
  rw [Region.overflows, decide_eq_false_iff_not]
  exact Nat.not_lt

theorem Region.intersects_eq_false (r q : Region) : r.intersects q = false ↔ Apart r.base r.size q.base q.size := by
  simp only [Region.intersects, Apart, Bool.and_eq_false_iff, decide_eq_false_iff_not, Nat.not_lt]

theorem Region.covers_iff (r : Region) (a : Nat) : r.covers a = true ↔ r.base ≤ a ∧ a < r.base + r.size := by
  simp [Region.covers]

theorem foldl_max_le (l : List Nat) (b n : Nat) : l.foldl Nat.max b ≤ n ↔ b ≤ n ∧ ∀ x ∈ l, x ≤ n := by
  induction l generalizing b with
  | nil => simp
  | cons x xs ih =>
    rw [List.foldl_cons, ih, List.forall_mem_cons, ← and_assoc]
    exact and_congr_left fun _ => Nat.max_le

/-- SCR_REQ is met exactly when every plane's four strides fit (R91). -/
theorem State.scratchNeed_le_iff (s : State) (ldst : Layout) :
    s.scratchNeed ldst ≤ s.scrSize.toNat ↔ ScratchFits s ldst := by
  have quarter : ∀ n : Nat, 4 * n ≤ s.scrSize.toNat ↔ n ≤ s.scrSize.toNat / 4 := fun n => by omega
  unfold State.scratchNeed ScratchFits
  rw [Config.scratchRows, quarter, foldl_max_le]
  simp only [Nat.zero_le, true_and, List.forall_mem_map, quarter]
  rfl

theorem PlaneField.lacksSource_eq_false (pf : PlaneField) : pf.lacksSource = false ↔ (pf.dst.h ≠ 0 → pf.src.h ≠ 0) := by
  unfold PlaneField.lacksSource
  by_cases hs : pf.src.h = 0 <;> by_cases hd : pf.dst.h = 0 <;> simp [hs, hd]

/-- `validate` passes exactly when the source fields have rows and steps 5 to 8 of R316 pass. -/
theorem State.validate_none_iff :
    s.validate lsrc ldst work = none ↔ SourceRows work ∧ Buffers s lsrc ldst := by
  rw [State.validate_none]
  simp only [PlaneField.lacksSource_eq_false, Region.overflows_eq_false, Region.intersects_eq_false,
    State.scratchNeed_le_iff]
  constructor
  · rintro ⟨hrows, hsrc, hdst, e1, e2, e3, hscr, a1, a2, a3⟩
    exact ⟨hrows, ⟨hsrc, hdst⟩, ⟨e1, e2, e3⟩, hscr, a1, a2, a3⟩
  · rintro ⟨hrows, ⟨hsrc, hdst⟩, ⟨e1, e2, e3⟩, hscr, a1, a2, a3⟩
    exact ⟨hrows, hsrc, hdst, e1, e2, e3, hscr, a1, a2, a3⟩

/-- Steps 2 and 3 of R316 pass exactly when both layouts exist. -/
theorem State.bothLayouts_ok_iff : s.bothLayouts = .ok (fmt, lsrc, ldst) ↔ Frames s fmt lsrc ldst := by
  rw [State.bothLayouts_ok, Dim.inRange_iff, Dim.inRange_iff]
  constructor
  · rintro ⟨hf, hs, hd, hls, hld⟩
    exact ⟨hf, hs, hd, hls, hld⟩
  · rintro ⟨hf, hs, hd, hls, hld⟩
    exact ⟨hf, hs, hd, hls, hld⟩

/-! ### The plan of a command -/

/-- A work list whose plane-fields are planes of the two layouts, each in one field (R277). -/
def WorksOn (s : State) (lsrc ldst : Layout) (work : List PlaneField) : Prop :=
  ∀ pf ∈ work, ∃ field, ∃ gs ∈ lsrc, ∃ gd ∈ ldst, pf = s.planeField field gs gd

/-- What every plan has passed: the checks of R316, on planes of the two frames. -/
structure Planned (s : State) (p : Plan) (fmt : Format) (lsrc ldst : Layout) : Prop where
  frames : Frames s fmt lsrc ldst
  rows : SourceRows p.work
  buffers : Buffers s lsrc ldst
  units : p.units = unitsOf fmt
  planes : WorksOn s lsrc ldst p.work

theorem State.mem_frameWork {pf : PlaneField} : pf ∈ s.frameWork lsrc ldst ↔
    ∃ field ∈ s.fields, ∃ (n : Nat) (gs gd : PlaneGeom), lsrc[n]? = some gs ∧ ldst[n]? = some gd ∧ pf = s.planeField field gs gd := by
  have hzip : ∀ f, pf ∈ List.zipWith (s.planeField f) lsrc ldst ↔
      ∃ (n : Nat) (gs gd : PlaneGeom), lsrc[n]? = some gs ∧ ldst[n]? = some gd ∧ pf = s.planeField f gs gd := fun f => by
    simp only [List.mem_iff_getElem?, List.getElem?_zipWith_eq_some, eq_comm (a := pf)]
  simp only [State.frameWork, List.mem_flatMap, hzip]

theorem State.frameWork_worksOn : WorksOn s lsrc ldst (s.frameWork lsrc ldst) := by
  intro pf hpf
  obtain ⟨f, -, n, gs, gd, hs, hd, rfl⟩ := State.mem_frameWork.1 hpf
  exact ⟨f, gs, List.mem_of_getElem? hs, gd, List.mem_of_getElem? hd, rfl⟩

theorem State.planeField_worksOn (field : Field) {gs gd : PlaneGeom} (hgs : gs ∈ lsrc) (hgd : gd ∈ ldst) :
    WorksOn s lsrc ldst [s.planeField field gs gd] := by
  intro pf hpf
  obtain rfl := List.mem_singleton.1 hpf
  exact ⟨field, gs, hgs, gd, hgd, rfl⟩

/-- What a RUN's plan has passed (R290). -/
theorem State.runPlan_planned (h : s.runPlan method = .ok p) : ∃ fmt lsrc ldst, Planned s p fmt lsrc ldst := by
  obtain ⟨fmt, lsrc, ldst, hb, hv, rfl⟩ := State.runPlan_ok.1 h
  obtain ⟨hrows, hbuf⟩ := State.validate_none_iff.1 hv
  exact ⟨fmt, lsrc, ldst, State.bothLayouts_ok_iff.1 hb, hrows, hbuf, rfl, State.frameWork_worksOn⟩

/-- What a SCALE_PLANE's plan has passed (R280). -/
theorem State.scalePlan_planned (h : s.scalePlan method role field = .ok p) :
    ∃ fmt lsrc ldst, Planned s p fmt lsrc ldst := by
  obtain ⟨fmt, lsrc, ldst, work, hb, hw, hv, rfl⟩ := State.scalePlan_ok.1 h
  obtain ⟨gs, gd, hgs, hgd, rfl⟩ := State.roleWork_some.1 hw
  obtain ⟨hrows, hbuf⟩ := State.validate_none_iff.1 hv
  exact ⟨fmt, lsrc, ldst, State.bothLayouts_ok_iff.1 hb, hrows, hbuf, rfl,
    State.planeField_worksOn field (mem_of_planeOf hgs).1 (mem_of_planeOf hgd).1⟩

theorem toOption_eq_some {ε α : Type} {e : Except ε α} {v : α} : e.toOption = some v ↔ e = .ok v := by
  cases e <;> simp [Except.toOption]

/-- A SCALE_PLANE has a plan exactly when its decode check and its checks pass (R280, R316). -/
theorem State.scalePlanOf_some {code : BitVec 2} : s.scalePlanOf method code field = some p ↔
    ∃ r, Role.ofCode code = some r ∧ fieldAllowed s.format.interlaced field = true ∧
      s.scalePlan method r field = .ok p := by
  unfold State.scalePlanOf
  cases Role.ofCode code with
  | none => simp
  | some r => by_cases hf : fieldAllowed s.format.interlaced field = true <;> simp [hf, toOption_eq_some]

/-- Whatever command has a plan, the plan has passed the checks (R278, R279). -/
theorem State.planOf_planned (h : s.planOf i = some p) : ∃ fmt lsrc ldst, Planned s p fmt lsrc ldst := by
  cases i with
  | nop | layout | locate | clear => cases h
  | scalePlaneNearest | scalePlaneBilinear | scalePlaneFourTap =>
    obtain ⟨r, -, -, hp⟩ := State.scalePlanOf_some.1 h
    exact State.scalePlan_planned hp
  | runNearest | runBilinear | runFourTap => exact State.runPlan_planned (toOption_eq_some.1 h)

/-- A plan does not depend on memory (R279). -/
theorem State.planOf_mem (s : State) (m : Memory) (i : Instr) : ({ s with mem := m } : State).planOf i = s.planOf i := by
  cases i <;> rfl

/-! ### The bytes of a plan -/

theorem Planned.mem_destAddrs (h : Planned s p fmt lsrc ldst) (ha : a ∈ p.destAddrs) :
    ∃ f, ∃ gd ∈ ldst, a ∈ sampleAddrs (unitsOf fmt) (locate gd s.dstBase.toNat f s.format.interlaced) := by
  obtain ⟨pf, hpf, ha⟩ := List.mem_flatMap.1 ha
  obtain ⟨f, _, -, gd, hgd, rfl⟩ := h.planes pf hpf
  exact ⟨f, gd, hgd, h.units ▸ ha⟩

/-- Every destination sample byte lies in the destination region (R94, R313). -/
theorem Planned.dest_covered (h : Planned s p fmt lsrc ldst) (ha : a ∈ p.destAddrs) : s.dstRegion.covers a = true := by
  obtain ⟨f, gd, hgd, ha⟩ := h.mem_destAddrs ha
  obtain ⟨-, hsize⟩ := h.buffers.sizes
  rw [h.frames.ldst] at hgd hsize
  have hin := sampleByte_bounds hgd ha
  have htotal := layout_size_le_total hgd
  rw [Region.covers_iff]
  simp only [State.dstRegion]
  omega

/-- Every sample byte of a source plane lies in the source region (R93, R313). -/
theorem Planned.source_covered (h : Planned s p fmt lsrc ldst) {gs : PlaneGeom} (hgs : gs ∈ lsrc) {f : Field}
    (ha : a ∈ sampleAddrs (unitsOf fmt) (locate gs s.srcBase.toNat f s.format.interlaced)) :
    s.srcRegion.covers a = true := by
  obtain ⟨hsize, -⟩ := h.buffers.sizes
  rw [h.frames.lsrc] at hgs hsize
  have hin := sampleByte_bounds hgs ha
  have htotal := layout_size_le_total hgs
  rw [Region.covers_iff]
  simp only [State.srcRegion]
  omega

/-- No destination sample byte is a scratch byte (R319). -/
theorem Planned.dest_not_scratch (h : Planned s p fmt lsrc ldst) (ha : a ∈ p.destAddrs) :
    s.scrRegion.covers a = false := by
  obtain ⟨hlo, hhi⟩ := (Region.covers_iff _ _).1 (h.dest_covered ha)
  obtain ⟨-, -, hapart⟩ := h.buffers.apart
  rw [Bool.eq_false_iff, ne_eq, Region.covers_iff]
  simp only [State.dstRegion, State.scrRegion, Apart] at *
  omega

/-- Every byte a plan writes lies in the address space (R80, R318). -/
theorem State.planOf_inSpace (h : s.planOf i = some p) (ha : a ∈ p.destAddrs ∨ s.scrRegion.covers a = true) :
    a < 2 ^ Config.addrBits := by
  obtain ⟨fmt, lsrc, ldst, hp⟩ := State.planOf_planned h
  obtain ⟨-, hdst, hscr⟩ := hp.buffers.ends
  rcases ha with ha | ha
  · have hin := (Region.covers_iff _ _).1 (hp.dest_covered ha)
    exact hin.2.trans_le hdst
  · have hin := (Region.covers_iff _ _).1 ha
    exact hin.2.trans_le hscr

/-! ### What a command leaves -/

/-- What a command leaves of memory, draws and DONE, given the plan it carries out: the plan applied and a success, or
memory as it was and no draw. -/
def Carries (s : State) (scale : Bool) : Option Plan → State → Prop
  | some p, t => t.status.done = true ∧ t.mem = (s.applyPlan p).mem ∧ t.draws = s.draws + 1
  | none, t => (scale = true → t.status.done = false) ∧ t.mem = s.mem ∧ t.draws = s.draws

theorem State.completeScale_carries (method : Method) (isRun : Bool) (plan : Except ErrorCode Plan) (s : State) :
    Carries s true plan.toOption (s.completeScale method isRun plan) := by
  rcases State.completeScale_cases method isRun plan s with ⟨code, rfl, he⟩ | ⟨p, rfl, he⟩ <;> rw [he]
  · exact ⟨fun _ => rfl, rfl, rfl⟩
  · exact ⟨rfl, rfl, rfl⟩

theorem scalePlane_carries (method : Method) (code : BitVec 2) (field : Field) (s : State) :
    Carries s true (s.scalePlanOf method code field) (scalePlane method code field s) := by
  unfold State.scalePlanOf scalePlane
  cases Role.ofCode code with
  | none => exact ⟨fun _ => rfl, rfl, rfl⟩
  | some r =>
    by_cases hf : fieldAllowed s.format.interlaced field = true
    · simp only [hf, if_true]
      exact State.completeScale_carries ..
    · simp only [hf]
      exact ⟨fun _ => rfl, rfl, rfl⟩

/-- Every command carries out the plan it has, and one without a plan leaves memory alone (R92, R94, R274, R321). -/
theorem exec_carries (i : Instr) (s : State) : ∃ t, exec i s = .next t ∧ Carries s (isScale i) (s.planOf i) t := by
  cases i with
  | nop => exact ⟨_, exec_nop s, nofun, rfl, rfl⟩
  | layout sel =>
    rw [exec_layout]
    rcases execLayout_cases sel s with ⟨_, -, he⟩ | ⟨_, -, he⟩ <;> exact ⟨_, he, nofun, rfl, rfl⟩
  | locate sel role field =>
    rw [exec_locate]
    rcases execLocate_cases sel role field s with ⟨_, -, he⟩ | ⟨_, -, he⟩ <;> exact ⟨_, he, nofun, rfl, rfl⟩
  | clear => exact ⟨_, exec_clear s, nofun, rfl, rfl⟩
  | scalePlaneNearest role field => exact ⟨_, exec_scalePlaneNearest role field s, scalePlane_carries ..⟩
  | scalePlaneBilinear role field => exact ⟨_, exec_scalePlaneBilinear role field s, scalePlane_carries ..⟩
  | scalePlaneFourTap role field => exact ⟨_, exec_scalePlaneFourTap role field s, scalePlane_carries ..⟩
  | runNearest => exact ⟨_, exec_runNearest s, State.completeScale_carries ..⟩
  | runBilinear => exact ⟨_, exec_runBilinear s, State.completeScale_carries ..⟩
  | runFourTap => exact ⟨_, exec_runFourTap s, State.completeScale_carries ..⟩

theorem exec_carries_of_next (h : exec i s = .next t) : Carries s (isScale i) (s.planOf i) t := by
  obtain ⟨u, hu, hc⟩ := exec_carries i s
  obtain rfl : u = t := by simpa using hu.symm.trans h
  exact hc

/-- A command with a plan succeeds and applies it (R271). -/
theorem exec_of_planOf (h : s.planOf i = some p) :
    ∃ t, exec i s = .next t ∧ t.status.done = true ∧ t.mem = (s.applyPlan p).mem ∧ t.draws = s.draws + 1 := by
  obtain ⟨t, ht, hc⟩ := exec_carries i s
  rw [h] at hc
  exact ⟨t, ht, hc⟩

/-- Only a SCALE_PLANE or RUN has a plan (R274). -/
theorem State.planOf_of_not_scale (hi : isScale i = false) : s.planOf i = none := by
  cases i with
  | nop | layout | locate | clear => rfl
  | _ => cases hi

end Sys2Proof.Machine
end

section
/-! SUPPORT. The memory the host and the block share: accesses to buffers in use, scratch, hazards, and the address space
(spec 20_memory.md R80, R90, R92, R97 to R99; 70_reset_and_hazards.md R350, R361). -/

namespace Sys2Proof.Machine

open Sys2Proof.Claims

variable {s t : State} {i : Instr}

/-! ### Memory under each step -/

/-- An outcome that is a next state has its memory inside the address space. -/
def InSpace (o : Host.Outcome State Fault Refusal) : Prop := ∀ t, o = .next t → t.mem.inSpace

theorem inSpace_next (h : t.mem.inSpace) : InSpace (.next t) := by
  rintro _ ⟨⟩
  exact h

/-- The bytes of a plan, and so the bytes it writes, stay inside the address space (R80, R90). -/
theorem exec_inSpace (h : s.mem.inSpace) (i : Instr) : InSpace (exec i s) := by
  obtain ⟨t, ht, hc⟩ := exec_carries i s
  rw [ht]
  refine inSpace_next ?_
  cases hp : s.planOf i with
  | none =>
    rw [hp] at hc
    obtain ⟨-, hm, -⟩ := hc
    rwa [hm]
  | some p =>
    rw [hp] at hc
    obtain ⟨-, hm, -⟩ := hc
    rw [hm, State.applyPlan_eq]
    refine Memory.inSpace_writeAll (Memory.inSpace_writeAll h fun c hc => ?_) fun c hc => ?_
    · have hd : c.1 ∈ (p.destCells s).map Prod.fst := List.mem_map_of_mem hc
      rw [Plan.destCells_addrs] at hd
      exact State.planOf_inSpace hp (.inl hd)
    · have hk : c.1 ∈ (drawnCells s.draws s.scrRegion.addrs).map Prod.fst := List.mem_map_of_mem hc
      rw [drawnCells_addrs, Region.mem_addrs] at hk
      exact State.planOf_inSpace hp (.inr hk)

theorem blockTurn_inSpace (h : s.mem.inSpace) : InSpace (blockTurn s) := by
  rcases blockTurn_cases s with ⟨-, he⟩ | ⟨w, e, -, -, he⟩ | ⟨w, i, -, -, he⟩ <;> rw [he]
  · exact inSpace_next h
  · exact inSpace_next h
  · exact exec_inSpace h i

/-- The command in flight could write bytes of its plan only (R350). -/
theorem State.mem_inFlightAddrs {a : Nat} (ha : a ∈ s.inFlightAddrs) :
    ∃ i p, s.planOf i = some p ∧ (a ∈ p.destAddrs ∨ s.scrRegion.covers a = true) := by
  unfold State.inFlightAddrs at ha
  split at ha
  · cases ha
  · split at ha
    · cases ha
    · rename_i i _
      split at ha
      · cases ha
      · rename_i p hp
        rw [List.mem_append, Region.mem_addrs] at ha
        exact ⟨i, p, hp, ha⟩

theorem resetBlock_inSpace (h : s.mem.inSpace) : (resetBlock s).mem.inSpace := by
  rw [resetBlock_mem]
  refine Memory.inSpace_writeAll h fun c hc => ?_
  have ha : c.1 ∈ (drawnCells s.draws s.inFlightAddrs).map Prod.fst := List.mem_map_of_mem hc
  rw [drawnCells_addrs] at ha
  obtain ⟨i, p, hp, ha⟩ := State.mem_inFlightAddrs ha
  exact State.planOf_inSpace hp ha

/-- No access to the register window touches memory (R34 to R64). -/
theorem windowWrite_mem {bytes : Nat} {offset : Int} {v : Word} (h : windowWrite bytes offset v s = .next t) :
    t.mem = s.mem := by
  rcases windowWrite_cases bytes offset v s with he | he | ⟨r, he⟩ <;> rw [he] at h
  · cases h
  · cases h
    rfl
  · rcases registerWrite_cases r v s with ⟨-, he⟩ | ⟨-, he⟩ | ⟨-, -, -, he⟩ | ⟨-, -, he⟩ <;> rw [he] at h
    · cases h
      rfl
    · rcases cmdWrite_cases v s with ⟨-, he⟩ | ⟨-, -, he⟩ | ⟨-, -, he⟩ <;> (rw [he] at h; cases h; rfl)
    · cases h
      rfl
    · cases h
      obtain ⟨-, -, -, hm⟩ := State.writeReg_frame r v s
      exact hm

/-- No read of the register window touches memory (R34, R64). -/
theorem windowRead_mem {bytes : Nat} {offset : Int} (h : windowRead bytes offset s = .next t) : t.mem = s.mem := by
  rcases windowRead_cases bytes offset s with he | he | ⟨r, he⟩ <;> rw [he] at h
  · cases h
  · cases h
    rfl
  · rcases registerRead_cases r s with ⟨-, -, he⟩ | ⟨v, he | he⟩ <;> rw [he] at h <;> cases h <;> rfl

/-- What a host byte write does: a free byte and the mark into a region while BUSY, else the byte (R97 to R99). -/
theorem memoryWrite_cases (a : Nat) (v : Byte) (s : State) :
    (s.status.busy = true ∧ s.inBuffers a = true ∧ memoryWrite a v s =
      { s with mem := s.mem.write8 a (Config.drawByte s.draws a), hazard := true, draws := s.draws + 1 }) ∨
    ((s.status.busy && s.inBuffers a) = false ∧ memoryWrite a v s = { s with mem := s.mem.write8 a v }) := by
  unfold memoryWrite
  split
  · rename_i hused
    rw [Bool.and_eq_true] at hused
    exact .inl ⟨hused.1, hused.2, rfl⟩
  · rename_i hfree
    exact .inr ⟨Bool.eq_false_iff.2 hfree, rfl⟩

theorem memoryWrite_inSpace (h : s.mem.inSpace) (addr : Word) (v : Byte) : (memoryWrite addr.toNat v s).mem.inSpace := by
  rcases memoryWrite_cases addr.toNat v s with ⟨-, -, he⟩ | ⟨-, he⟩ <;> rw [he] <;>
    exact Memory.inSpace_write8 h addr.isLt _

theorem memoryRead_mem (a : Nat) (s : State) : (memoryRead a s).mem = s.mem := by
  unfold memoryRead
  split <;> rfl

theorem hostStep_inSpace (h : s.mem.inSpace) (e : HostEvent) : InSpace (hostStep e s) := by
  cases e with
  | regWrite bytes offset v =>
    intro t ht
    rwa [windowWrite_mem ht]
  | regRead bytes offset =>
    intro t ht
    rwa [windowRead_mem ht]
  | memWrite addr v => exact inSpace_next (memoryWrite_inSpace h addr v)
  | memRead addr => exact inSpace_next ((memoryRead_mem addr.toNat s).symm ▸ h)
  | reset => exact inSpace_next (resetBlock_inSpace h)
  | blockTurn => exact blockTurn_inSpace h

/-- Settles O58: one case per event of the schedule; a plan's bytes lie in regions that end inside the address space. -/
theorem memoryStaysInTheAddressSpace : Obligations.MemoryStaysInTheAddressSpace := by
  unfold Obligations.MemoryStaysInTheAddressSpace
  intro s t h hstep
  rcases step_cases s with ⟨-, he⟩ | ⟨e, rest, -, he⟩ <;> rw [he] at hstep
  · exact blockTurn_inSpace h t hstep
  · exact hostStep_inSpace (s := { s with schedule := rest }) h e t hstep

/-! ### Buffers in use -/

theorem State.inBuffers_iff (s : State) (a : Nat) : s.inBuffers a = true ↔
    s.srcRegion.covers a = true ∨ s.dstRegion.covers a = true ∨ s.scrRegion.covers a = true := by
  simp [State.inBuffers, or_assoc]

/-- Settles O15, by the two cases of each host access. -/
theorem hostAccessesToBuffersInUse : Obligations.HostAccessesToBuffersInUse := by
  unfold Obligations.HostAccessesToBuffersInUse
  intro s addr v
  dsimp only
  rw [← State.inBuffers_iff]
  refine ⟨⟨memoryWrite addr.toNat v s, rfl, ?write⟩, ?readUsed, ?readPlain⟩
  case write =>
    rcases memoryWrite_cases addr.toNat v s with ⟨hb, hin, he⟩ | ⟨hfree, he⟩ <;> rw [he]
    · refine ⟨fun hn => absurd ⟨hb, hin⟩ hn, fun _ => ⟨rfl, ?_⟩, fun b hne => ?_⟩
      · exact Memory.read8_of_get? (Memory.get?_write8_same ..)
      · exact Memory.read8_congr (Memory.get?_write8_other hne ..)
    · refine ⟨fun _ => ⟨rfl, ?_⟩, fun hu => ?_, fun b hne => ?_⟩
      · exact Memory.read8_of_get? (Memory.get?_write8_same ..)
      · simp [hu.1, hu.2] at hfree
      · exact Memory.read8_congr (Memory.get?_write8_other hne ..)
  case readUsed =>
    rintro ⟨hb, hin⟩
    rw [after_eq_hostStep]
    simp only [hostStep, memoryRead, hb, Bool.true_and, Bool.or_eq_true, if_pos hin]
    rfl
  case readPlain =>
    intro hfree
    have hn : (s.status.busy && (s.dstRegion.covers addr.toNat || s.scrRegion.covers addr.toNat)) = false := by
      rcases hfree with hb | ⟨hd, hk⟩
      · simp [hb]
      · simp [hd, hk]
    rw [after_eq_hostStep]
    simp only [hostStep, memoryRead, hn]
    rfl

/-! ### Hazards and scratch -/

/-- Settles O16: after a hazard the destination cells are free values. -/
theorem hazardFreesTheDestination : Obligations.HazardFreesTheDestination := by
  unfold Obligations.HazardFreesTheDestination
  intro s w i p hcur hdec hhaz hp
  obtain ⟨t, ht, hdone, hm, -⟩ := exec_of_planOf hp
  have hturn : blockTurn s = exec i s := by simp [blockTurn, hcur, hdec]
  refine ⟨t, hturn.trans ht, hdone, fun a ha hk => ?_⟩
  rw [hm, State.applyPlan_dest hk, Plan.destCells, if_pos hhaz]
  exact Memory.get?_writeAll_drawnCells ha s.mem

/-- Settles O50: a plan draws scratch, and a command without one leaves memory alone. -/
theorem scratchIsUnspecifiedAfterSuccess : Obligations.ScratchIsUnspecifiedAfterSuccess := by
  unfold Obligations.ScratchIsUnspecifiedAfterSuccess
  intro i s t h
  have hc := exec_carries_of_next h
  cases hp : s.planOf i with
  | none =>
    rw [hp] at hc
    obtain ⟨hfail, hm, hd⟩ := hc
    refine ⟨fun hi hdone => ?_, fun _ => ⟨hm, hd⟩⟩
    rw [hfail hi] at hdone
    cases hdone
  | some p =>
    rw [hp] at hc
    obtain ⟨hdone, hm, hd⟩ := hc
    refine ⟨fun _ _ => ⟨hd, fun a ha => ?_⟩, fun hno => ?_⟩
    · rw [hm]
      exact State.applyPlan_scratch ha
    · rcases hno with hi | hnot
      · rw [State.planOf_of_not_scale hi] at hp
        cases hp
      · rw [hdone] at hnot
        cases hnot

end Sys2Proof.Machine
end

section
/-! SUPPORT. What a kernel reads and how large its values are, and how the channels of a sample are put together and taken
apart (spec 43_resample_kernels.md R203, R204, R210, R215, R225; 44_chroma_dispatch.md R241, R242, R249). -/

namespace Sys2Proof.Machine

/-! ### The kernels -/

theorem srcIndex_lt {n nSrc nDst : Nat} (hs : 1 ≤ nSrc) (hn : n < nDst) : srcIndex n nSrc nDst < nSrc := by
  unfold srcIndex srcPos
  have hpos : n * nSrc * 2 ^ Config.fracBits < nDst * (nSrc * 2 ^ Config.fracBits) := by
    rw [Nat.mul_assoc]
    exact Nat.mul_lt_mul_of_pos_right hn (by positivity)
  refine Nat.div_lt_of_lt_mul (Nat.div_lt_of_lt_mul ?_)
  rwa [Nat.mul_comm (2 ^ Config.fracBits)]

theorem clampIndex_lt {n : Nat} (hn : 1 ≤ n) (k : Int) : clampIndex k n < n := by
  unfold clampIndex
  omega

theorem saturate_le (v : Int) (m : Nat) : saturate v m ≤ m := by
  unfold saturate
  omega

/-- One axis reads only the samples of its row or column (R204). -/
theorem axisSample_congr {taps : Config.TapTable} {method : Method} {f g : Nat → Nat} {nSrc nDst m n : Nat}
    (hs : 1 ≤ nSrc) (hn : n < nDst) (h : ∀ k < nSrc, f k = g k) :
    axisSample taps method f nSrc nDst m n = axisSample taps method g nSrc nDst m n := by
  cases method with
  | nearest => exact h _ (Nat.div_lt_of_lt_mul (Nat.mul_lt_mul_of_pos_right hn hs))
  | bilinear =>
    simp only [axisSample, bilinearAxis, h _ (srcIndex_lt hs hn), h _ (clampIndex_lt hs _)]
  | fourTap => simp only [axisSample, fourTapAxis, h _ (clampIndex_lt hs _)]

/-- A kernel reads only the source image (R204). -/
theorem kernel_congr {taps : Config.TapTable} {method : Method} {f g : Nat → Nat → Nat} {sw sh dw dh m x y : Nat}
    (hsw : 1 ≤ sw) (hsh : 1 ≤ sh) (hx : x < dw) (hy : y < dh) (h : ∀ c < sw, ∀ r < sh, f c r = g c r) :
    kernel taps method f sw sh dw dh m x y = kernel taps method g sw sh dw dh m x y :=
  axisSample_congr hsh hy fun r hr => axisSample_congr hsw hx fun c hc => h c hc r hr

/-- One axis keeps the channel's range (R203). -/
theorem axisSample_le {taps : Config.TapTable} {method : Method} {f : Nat → Nat} {nSrc nDst m n : Nat}
    (h : ∀ k, f k ≤ m) : axisSample taps method f nSrc nDst m n ≤ m := by
  cases method with
  | nearest => exact h _
  | bilinear => exact saturate_le _ _
  | fourTap => exact saturate_le _ _

/-- A kernel keeps the channel's range (R203, R242). -/
theorem kernel_le {taps : Config.TapTable} {method : Method} {f : Nat → Nat → Nat} {sw sh dw dh m x y : Nat}
    (h : ∀ c r, f c r ≤ m) : kernel taps method f sw sh dw dh m x y ≤ m :=
  axisSample_le fun r => axisSample_le fun c => h c r

/-! ### Channels put together -/

/-- The bits of a sample put together from channels: those of each channel, from its lowest bit on. -/
theorem testBit_foldl_or (f : Channel → Nat) (cs : List Channel) (acc n : Nat) :
    (cs.foldl (fun acc c => acc ||| f c <<< c.lo) acc).testBit n =
      (acc.testBit n || cs.any fun c => decide (c.lo ≤ n) && (f c).testBit (n - c.lo)) := by
  induction cs generalizing acc with
  | nil => simp
  | cons c cs ih =>
    rw [List.foldl_cons, ih, Nat.testBit_or, Nat.testBit_shiftLeft, List.any_cons, Bool.or_assoc]

theorem foldl_or_lt {f : Channel → Nat} {cs : List Channel} {acc n : Nat} (hacc : acc < 2 ^ n)
    (h : ∀ c ∈ cs, f c < 2 ^ c.bits ∧ c.lo + c.bits ≤ n) :
    cs.foldl (fun acc c => acc ||| f c <<< c.lo) acc < 2 ^ n := by
  induction cs generalizing acc with
  | nil => exact hacc
  | cons c cs ih =>
    obtain ⟨hc, hcs⟩ := List.forall_mem_cons.1 h
    refine ih (Nat.or_lt_two_pow hacc ?_) hcs
    calc f c <<< c.lo = f c * 2 ^ c.lo := Nat.shiftLeft_eq ..
      _ < 2 ^ c.bits * 2 ^ c.lo := Nat.mul_lt_mul_of_pos_right hc.1 (by positivity)
      _ = 2 ^ (c.lo + c.bits) := by rw [← Nat.pow_add, Nat.add_comm]
      _ ≤ 2 ^ n := Nat.pow_le_pow_right Nat.two_pos hc.2

/-- Taking a channel out of a sample gives the value put in, when no other channel has a bit of it (R241). -/
theorem Channel.value_foldl_or {f : Channel → Nat} {cs : List Channel} {c : Channel} (hc : c ∈ cs)
    (hlt : ∀ d ∈ cs, f d < 2 ^ d.bits)
    (hd : ∀ d ∈ cs, d ≠ c → d.lo + d.bits ≤ c.lo ∨ c.lo + c.bits ≤ d.lo) :
    c.value (cs.foldl (fun acc c => acc ||| f c <<< c.lo) 0) = f c := by
  refine Nat.eq_of_testBit_eq fun n => ?_
  rw [Channel.value, Nat.testBit_mod_two_pow, Nat.testBit_div_two_pow, testBit_foldl_or, Nat.zero_testBit,
    Bool.false_or]
  have above : ∀ d ∈ cs, ∀ k, d.bits ≤ k → (f d).testBit k = false := fun d hdc k hk =>
    Nat.testBit_lt_two_pow ((hlt d hdc).trans_le (Nat.pow_le_pow_right Nat.two_pos hk))
  by_cases hn : n < c.bits
  · rw [decide_eq_true hn, Bool.true_and, Bool.eq_iff_iff, List.any_eq_true]
    constructor
    · rintro ⟨d, hdc, hbit⟩
      rw [Bool.and_eq_true, decide_eq_true_eq] at hbit
      obtain ⟨hlo, hbit⟩ := hbit
      by_cases hne : d = c
      · subst hne
        rwa [Nat.add_sub_cancel] at hbit
      · rcases hd d hdc hne with hlow | hhigh
        · rw [above d hdc _ (by omega)] at hbit
          cases hbit
        · omega
    · intro hbit
      exact ⟨c, hc, by simp [hbit]⟩
  · rw [decide_eq_false hn, Bool.false_and, above c hc n (Nat.not_lt.1 hn)]

variable {fmt : Format} {u : SampleUnit}

/-- The channels of a sample are bit fields inside it, and two of them share no bit (R241). -/
theorem unitsOf_channels {c : Channel} (hu : u ∈ unitsOf fmt) (hc : c ∈ u.channels) :
    c.lo + c.bits ≤ 8 * u.bytes ∧ ∀ d ∈ u.channels, d ≠ c → d.lo + d.bits ≤ c.lo ∨ c.lo + c.bits ≤ d.lo := by
  have units : ∀ fmt, ∀ u ∈ unitsOf fmt, ∀ c ∈ u.channels, c.lo + c.bits ≤ 8 * u.bytes ∧
      ∀ d ∈ u.channels, d ≠ c → d.lo + d.bits ≤ c.lo ∨ c.lo + c.bits ≤ d.lo := fun fmt => by cases fmt <;> decide
  exact units fmt u hu c hc

theorem Channel.value_le_max (c : Channel) (v : Nat) : c.value v ≤ c.max :=
  Nat.le_sub_one_of_lt (Nat.mod_lt _ (by positivity))

/-- A scaled channel is in the channel's range (R203, R242). -/
theorem SampleUnit.scaled_lt (u : SampleUnit) (P : Config.Params) (c : Channel) (method : Method) (m : Memory)
    (pf : PlaneField) (x y : Nat) : u.scaled P c method m pf x y < 2 ^ c.bits := by
  have hle : u.scaled P c method m pf x y ≤ c.max := kernel_le fun _ _ => c.value_le_max _
  exact Nat.lt_of_le_sub_one (by positivity) hle

variable {P : Config.Params} {method : Method} {m m' : Memory} {pf : PlaneField} {x y : Nat}

/-- A composed sample fits in its bytes (R249). -/
theorem SampleUnit.compose_lt (hu : u ∈ unitsOf fmt) : u.compose P method m pf x y < 2 ^ (8 * u.bytes) :=
  foldl_or_lt (by positivity) fun c hc => ⟨u.scaled_lt P c method m pf x y, (unitsOf_channels hu hc).1⟩

/-- A composed sample holds each channel's scaled value (R244, R249). -/
theorem SampleUnit.value_compose (hu : u ∈ unitsOf fmt) {c : Channel} (hc : c ∈ u.channels) :
    c.value (u.compose P method m pf x y) = u.scaled P c method m pf x y :=
  Channel.value_foldl_or (f := fun c => u.scaled P c method m pf x y) hc
    (fun d _ => u.scaled_lt P d method m pf x y) (unitsOf_channels hu hc).2

/-! ### What a plane-field reads -/

theorem SampleUnit.one_le_width {w : Nat} (u : SampleUnit) (hw : 1 ≤ w) : 1 ≤ u.width w := by
  unfold SampleUnit.width ceilDiv
  split <;> omega

/-- A destination sample depends only on the sample bytes of the source plane-field (R93, R204, R249). -/
theorem SampleUnit.compose_congr {units : List SampleUnit} (hu : u ∈ units) (hw : 1 ≤ pf.src.w) (hh : 1 ≤ pf.src.h)
    (hx : x < u.width pf.dst.w) (hy : y < pf.dst.h) (h : ∀ a ∈ sampleAddrs units pf.src, m.read8 a = m'.read8 a) :
    u.compose P method m pf x y = u.compose P method m' pf x y := by
  unfold SampleUnit.compose
  refine List.foldl_ext _ _ 0 fun acc c _ => ?_
  have hscaled : u.scaled P c method m pf x y = u.scaled P c method m' pf x y :=
    kernel_congr (u.one_le_width hw) hh hx hy fun k hk r hr =>
      congrArg c.value (SampleUnit.read_congr fun b hb => h _ (mem_sampleAddrs.2 ⟨u, hu, k, r, b, hk, hr, hb, rfl⟩))
  rw [hscaled]

/-- The writes of a plane-field depend only on the sample bytes of its source (R93, R249). -/
theorem PlaneField.cells_congr {units : List SampleUnit} (hw : 1 ≤ pf.src.w) (hh : pf.dst.h ≠ 0 → pf.src.h ≠ 0)
    (h : ∀ a ∈ sampleAddrs units pf.src, m.read8 a = m'.read8 a) :
    pf.cells P method units m = pf.cells P method units m' := by
  refine List.flatMap_congr fun u hu => List.flatMap_congr fun p hp => ?_
  obtain ⟨hx, hy⟩ := SampleUnit.mem_positions.1 hp
  have hrows : 1 ≤ pf.src.h := Nat.one_le_iff_ne_zero.2 (hh (Nat.ne_zero_of_lt hy))
  rw [SampleUnit.compose_congr hu hw hrows hx hy h]

end Sys2Proof.Machine
end

section
/-! SUPPORT. What a successful SCALE_PLANE or RUN leaves at its destination samples, and what it depends on (spec
20_memory.md R82, R83, R93, R94; 44_chroma_dispatch.md R249; 45_commands.md R279, R280, R290). -/

namespace Sys2Proof.Machine

open Sys2Proof.Claims

variable {s : State} {fmt : Format} {lsrc ldst : Layout} {p : Plan} {i : Instr} {a : Nat} {method : Method}
  {field : Field}

/-! ### Only the source region matters -/

/-- The writes of a plan depend only on the source region (R82, R93). -/
theorem Planned.cells_congr (h : Planned s p fmt lsrc ldst) {m m' : Memory} (P : Config.Params)
    (hm : ∀ a, s.srcRegion.covers a = true → m.read8 a = m'.read8 a) : p.cells P m = p.cells P m' := by
  refine List.flatMap_congr fun pf hpf => ?_
  obtain ⟨f, gs, hgs, gd, -, rfl⟩ := h.planes pf hpf
  have hw : 1 ≤ gs.w := by
    rw [h.frames.lsrc] at hgs
    refine layout_one_le_w (Nat.one_le_iff_ne_zero.2 fun h0 => h.frames.srcDim.1 ?_) hgs
    exact BitVec.eq_of_toNat_eq h0
  refine PlaneField.cells_congr (by simpa [State.planeField] using hw) (h.rows _ hpf) fun a ha => hm a ?_
  exact h.source_covered hgs (h.units ▸ ha)

/-- Settles O48: both runs write the same cells, and draw the same scratch. -/
theorem onlyTheSourceRegionMatters : Obligations.OnlyTheSourceRegionMatters := by
  unfold Obligations.OnlyTheSourceRegionMatters
  intro i s m' p t t' hhaz hp hm ht ht' a ha
  obtain ⟨fmt, lsrc, ldst, hplan⟩ := State.planOf_planned hp
  have hk := hplan.dest_not_scratch ha
  have hc := exec_carries_of_next ht
  have hc' := exec_carries_of_next ht'
  rw [hp] at hc
  rw [State.planOf_mem, hp] at hc'
  obtain ⟨-, hmem, -⟩ := hc
  obtain ⟨-, hmem', -⟩ := hc'
  have hcells : p.destCells { s with mem := m' } = p.destCells s := by
    unfold Plan.destCells
    simp only [hhaz, Bool.false_eq_true, if_false]
    exact hplan.cells_congr s.params hm
  obtain ⟨v, -, hv⟩ := Memory.get?_writeAll_written (cells := p.destCells s) (a := a) (by simpa using ha)
  rw [hmem, hmem']
  refine Memory.read8_congr ?_
  rw [State.applyPlan_dest hk, State.applyPlan_dest (s := { s with mem := m' }) hk, hcells, hv, hv]

/-! ### The samples a plan leaves -/

/-- With no hazard, and no two samples sharing a byte, every destination sample reads as the kernel gives it (R94,
R249). -/
theorem Planned.read_sample (h : Planned s p fmt lsrc ldst) (hn : p.destAddrs.Nodup) (hhaz : s.hazard = false)
    {pf : PlaneField} (hpf : pf ∈ p.work) {u : SampleUnit} (hu : u ∈ unitsOf fmt) {x r : Nat}
    (hx : x < u.width pf.dst.w) (hr : r < pf.dst.h) :
    u.read s.params.sample16BE (s.applyPlan p).mem (u.addr pf.dst x r) = u.compose s.params p.method s.mem pf x r := by
  refine SampleUnit.read_of_cells (SampleUnit.compose_lt hu) fun c hc => ?_
  have hcell : c ∈ p.cells s.params s.mem := by
    refine List.mem_flatMap.2 ⟨pf, hpf, List.mem_flatMap.2 ⟨u, h.units ▸ hu, List.mem_flatMap.2 ⟨(x, r), ?_, hc⟩⟩⟩
    exact SampleUnit.mem_positions.2 ⟨hx, hr⟩
  have hdest : c.1 ∈ p.destAddrs := by
    rw [← p.cells_addrs s.params s.mem]
    exact List.mem_map_of_mem hcell
  rw [State.applyPlan_dest (h.dest_not_scratch hdest), Plan.destCells, hhaz]
  exact Memory.get?_writeAll_of_mem (by simpa using hn) hcell s.mem

/-- The destination sample bytes of a work list of one plane-field are distinct. -/
theorem destAddrs_nodup_single (hf : Frames s fmt lsrc ldst) {gs gd : PlaneGeom} (hgd : gd ∈ ldst) (e : Method) :
    (Plan.destAddrs ⟨e, unitsOf fmt, [s.planeField field gs gd]⟩).Nodup := by
  rw [hf.ldst] at hgd
  simpa [Plan.destAddrs, State.planeField] using sampleAddrs_nodup hgd

/-- Joining the images of pairs that depend on the second member only. -/
theorem flatMap_zipWith_right {α β γ δ : Type} {f : α → β → γ} {F : γ → List δ} {G : β → List δ}
    (h : ∀ x y, F (f x y) = G y) {l : List α} {l' : List β} (hlen : l.length = l'.length) :
    (List.zipWith f l l').flatMap F = l'.flatMap G := by
  induction l generalizing l' with
  | nil => rw [List.eq_nil_of_length_eq_zero hlen.symm]; rfl
  | cons x xs ih =>
    cases l' with
    | nil => cases hlen
    | cons y ys => rw [List.zipWith_cons_cons, List.flatMap_cons, List.flatMap_cons, h, ih (Nat.succ.inj hlen)]

theorem State.mem_fields : field ∈ s.fields ↔ field = .f0 ∨ field = .f1 ∧ s.format.interlaced = true := by
  unfold State.fields
  cases s.format.interlaced <;> simp

/-- The destination sample bytes of a RUN are distinct: no plane meets another, and no field the other (R94). -/
theorem destAddrs_nodup_frame (hf : Frames s fmt lsrc ldst) (e : Method) :
    (Plan.destAddrs ⟨e, unitsOf fmt, s.frameWork lsrc ldst⟩).Nodup := by
  have hlen : lsrc.length = ldst.length := by
    rw [hf.lsrc, hf.ldst]
    exact length_layout ..
  have hfields : s.fields.Nodup := by
    unfold State.fields
    split <;> decide
  have hdest : Plan.destAddrs ⟨e, unitsOf fmt, s.frameWork lsrc ldst⟩ = s.fields.flatMap fun f => ldst.flatMap fun g =>
      sampleAddrs (unitsOf fmt) (locate g s.dstBase.toNat f s.format.interlaced) := by
    unfold Plan.destAddrs State.frameWork
    rw [List.flatMap_assoc]
    exact List.flatMap_congr fun f _ => flatMap_zipWith_right (f := s.planeField f)
      (F := fun pf => sampleAddrs (unitsOf fmt) pf.dst) (fun _ _ => rfl) hlen
  rw [hdest, hf.ldst]
  refine nodup_flatMap_of hfields (fun f _ => ?planes) ?fields
  case planes =>
    exact nodup_flatMap_of (layout_nodup ..) (fun g hg => sampleAddrs_nodup hg)
      fun g hg g' hg' a ha ha' => (sampleByte_unique hg hg' ha ha').1
  case fields =>
    intro f hf f' hf' a ha ha'
    obtain ⟨g, hg, ha⟩ := List.mem_flatMap.1 ha
    obtain ⟨g', hg', ha'⟩ := List.mem_flatMap.1 ha'
    by_cases hil : s.format.interlaced = true
    · exact (sampleByte_unique hg hg' ha ha').2 hil
    · simp only [State.mem_fields, hil, and_false, or_false, Bool.false_eq_true] at hf hf'
      rw [hf, hf']

/-! ### The channels the statements list -/

/-- A unit's channel as a row of the table of R241. -/
def classChannelOf (u : SampleUnit) (c : Channel) : ClassChannel := ⟨u.pitch, u.offset, u.half, u.wide, c.lo, c.bits⟩

/-- The channels listed for a format code are those of its units (R240, R241). -/
theorem classChannels_eq : ∀ code : BitVec 5, ∀ fmt ∈ Format.ofCode code,
    classChannels code.toNat = (unitsOf fmt).flatMap fun u => u.channels.map (classChannelOf u) := by decide

theorem classChannelOf_width (u : SampleUnit) (c : Channel) (w : Nat) : (classChannelOf u c).width w = u.width w := rfl

/-- A listed channel has the value the unit's channel image has (R241, R84). -/
theorem classChannelOf_value (u : SampleUnit) (c : Channel) (be : Bool) (m : Memory) (g : EffGeom) :
    (classChannelOf u c).value be m g = u.image be c m g := by
  funext x r
  unfold ClassChannel.value SampleUnit.image SampleUnit.read Memory.read16
  cases hw : u.wide <;> simp only [classChannelOf, hw] <;> rfl

theorem locate_eq_fieldPlane (g : PlaneGeom) (base : Nat) (field : Field) (il : Bool) :
    locate g base field il = fieldPlane g base field il := by
  unfold locate fieldPlane
  cases il <;> cases field <;> rfl

/-- Where every sample reads as composed, every listed channel has its kernel's value (R242, R249). -/
theorem scaled_of_read {mem : Memory} {pf : PlaneField} (hf : Format.ofCode s.format.fmt = some fmt)
    (h : ∀ u ∈ unitsOf fmt, ∀ x r : Nat, x < u.width pf.dst.w → r < pf.dst.h →
      u.read s.params.sample16BE mem (u.addr pf.dst x r) = u.compose s.params method s.mem pf x r) :
    Scaled s method mem pf.src pf.dst := by
  intro c hc x r hx hr
  rw [classChannels_eq _ fmt hf] at hc
  obtain ⟨u, hu, hc⟩ := List.mem_flatMap.1 hc
  obtain ⟨ch, hch, rfl⟩ := List.mem_map.1 hc
  rw [classChannelOf_value, classChannelOf_value]
  calc ch.value (u.read s.params.sample16BE mem (u.addr pf.dst x r))
      = ch.value (u.compose s.params method s.mem pf x r) := by rw [h u hu x r hx hr]
    _ = u.scaled s.params ch method s.mem pf x r := SampleUnit.value_compose hu hch

/-! ### RUN and SCALE_PLANE -/

theorem State.planOf_runForms (h : (i, method) ∈ runForms) : s.planOf i = (s.runPlan method).toOption := by
  simp only [runForms, List.mem_cons, Prod.mk.injEq, List.not_mem_nil, or_false] at h
  rcases h with ⟨rfl, rfl⟩ | ⟨rfl, rfl⟩ | ⟨rfl, rfl⟩ <;> rfl

theorem State.planOf_planeForms {code : BitVec 2} (h : (i, method) ∈ planeForms code field) :
    s.planOf i = s.scalePlanOf method code field := by
  simp only [planeForms, List.mem_cons, Prod.mk.injEq, List.not_mem_nil, or_false] at h
  rcases h with ⟨rfl, rfl⟩ | ⟨rfl, rfl⟩ | ⟨rfl, rfl⟩ <;> rfl

/-- A RUN whose checks pass has its plan (R278, R290). -/
theorem State.planOf_run (hi : (i, method) ∈ runForms) (hf : Frames s fmt lsrc ldst)
    (hrows : SourceRows (s.frameWork lsrc ldst)) (hb : Buffers s lsrc ldst) :
    s.planOf i = some ⟨s.effMethod method, unitsOf fmt, s.frameWork lsrc ldst⟩ := by
  rw [State.planOf_runForms hi, toOption_eq_some]
  exact State.runPlan_ok.2
    ⟨fmt, lsrc, ldst, State.bothLayouts_ok_iff.2 hf, State.validate_none_iff.2 ⟨hrows, hb⟩, rfl⟩

theorem Role.ofCode_code (role : Role) : Role.ofCode role.code = some role := by
  cases role <;> decide

theorem fieldAllowed_of {il : Bool} (h : field = .f1 → il = true) : fieldAllowed il field = true := by
  cases field with
  | f0 => simp [fieldAllowed]
  | f1 => simp [fieldAllowed, h rfl]

/-- A SCALE_PLANE whose checks pass has its plan (R278, R280). -/
theorem State.planOf_scalePlane {role : Role} (hi : (i, method) ∈ planeForms role.code field)
    (hf : Frames s fmt lsrc ldst) (hfield : field = .f1 → s.format.interlaced = true) {gs gd : PlaneGeom}
    (hgs : gs ∈ lsrc) (hrs : gs.role = role) (hgd : gd ∈ ldst) (hrd : gd.role = role)
    (hrows : SourceRows [s.planeField field gs gd]) (hb : Buffers s lsrc ldst) :
    s.planOf i = some ⟨s.effMethod method, unitsOf fmt, [s.planeField field gs gd]⟩ := by
  have hps : lsrc.planeOf role = some gs := by
    rw [hf.lsrc] at hgs ⊢
    exact hrs ▸ layout_planeOf hgs
  have hpd : ldst.planeOf role = some gd := by
    rw [hf.ldst] at hgd ⊢
    exact hrd ▸ layout_planeOf hgd
  rw [State.planOf_planeForms hi, State.scalePlanOf_some]
  exact ⟨role, Role.ofCode_code role, fieldAllowed_of hfield, State.scalePlan_ok.2
    ⟨fmt, lsrc, ldst, _, State.bothLayouts_ok_iff.2 hf, State.roleWork_some.2 ⟨gs, gd, hps, hpd, rfl⟩,
      State.validate_none_iff.2 ⟨hrows, hb⟩, rfl⟩⟩

/-- Settles O40: the frame's sample bytes are distinct, so every sample written is read back. -/
theorem runWritesTheFrame : Obligations.RunWritesTheFrame := by
  unfold Obligations.RunWritesTheFrame
  intro i m hi s fmt lsrc ldst hf hrows hb hhaz
  obtain ⟨t, ht, hdone, hm, -⟩ := exec_of_planOf (State.planOf_run hi hf hrows hb)
  have hplan : Planned s ⟨s.effMethod m, unitsOf fmt, s.frameWork lsrc ldst⟩ fmt lsrc ldst :=
    ⟨hf, hrows, hb, rfl, State.frameWork_worksOn⟩
  have hread : ∀ pf ∈ s.frameWork lsrc ldst, ∀ u ∈ unitsOf fmt, ∀ x r : Nat, x < u.width pf.dst.w → r < pf.dst.h →
      u.read s.params.sample16BE t.mem (u.addr pf.dst x r) = u.compose s.params (s.effMethod m) s.mem pf x r := by
    intro pf hpf u hu x r hx hr
    rw [hm]
    exact hplan.read_sample (destAddrs_nodup_frame hf _) hhaz hpf hu hx hr
  refine ⟨t, ht, hdone, fun field hfield n gs gd hgs hgd => ?_, hread⟩
  rw [← locate_eq_fieldPlane, ← locate_eq_fieldPlane]
  have hmem : s.planeField field gs gd ∈ s.frameWork lsrc ldst :=
    State.mem_frameWork.2 ⟨field, State.mem_fields.2 hfield, n, gs, gd, hgs, hgd, rfl⟩
  exact scaled_of_read (pf := s.planeField field gs gd) hf.format (hread _ hmem)

/-- Settles O41: the plane-field's sample bytes are distinct, so every sample written is read back. -/
theorem scalePlaneWritesThePlane : Obligations.ScalePlaneWritesThePlane := by
  unfold Obligations.ScalePlaneWritesThePlane
  intro role field i m hi s fmt lsrc ldst gs gd hf hfield hgs hrs hgd hrd hrows hb hhaz
  obtain ⟨t, ht, hdone, hm, -⟩ := exec_of_planOf (State.planOf_scalePlane hi hf hfield hgs hrs hgd hrd hrows hb)
  have hplan : Planned s ⟨s.effMethod m, unitsOf fmt, [s.planeField field gs gd]⟩ fmt lsrc ldst :=
    ⟨hf, hrows, hb, rfl, State.planeField_worksOn field hgs hgd⟩
  have hread : ∀ u ∈ unitsOf fmt, ∀ x r : Nat, x < u.width (s.planeField field gs gd).dst.w →
      r < (s.planeField field gs gd).dst.h →
      u.read s.params.sample16BE t.mem (u.addr (s.planeField field gs gd).dst x r) =
        u.compose s.params (s.effMethod m) s.mem (s.planeField field gs gd) x r := by
    intro u hu x r hx hr
    rw [hm]
    exact hplan.read_sample (destAddrs_nodup_single hf hgd _) hhaz List.mem_cons_self hu hx hr
  refine ⟨t, ht, hdone, ?_, fun u hu x r hx hr => hread u hu x r (by simpa [State.planeField] using hx) hr⟩
  rw [← locate_eq_fieldPlane, ← locate_eq_fieldPlane]
  exact scaled_of_read (pf := s.planeField field gs gd) hf.format hread

end Sys2Proof.Machine
end

section
/-! SUPPORT. The decoder and the encoder as inverses, through the fields of a command's word (spec 30_encoding.md R110 to
R113, R122 to R126, R130). -/

namespace Sys2Proof

open Sys2Proof.Machine

variable {f : Fields} {i : Instr}

/-! ### The fields of a command's word -/

@[simp] theorem selOf_bit (sel : Sel) : selOf sel.bit = sel := by cases sel <;> rfl
@[simp] theorem fieldOf_bit (field : Field) : fieldOf field.bit = field := by cases field <;> rfl
@[simp] theorem bit_selOf (b : BitVec 1) : (selOf b).bit = b := by revert b; decide
@[simp] theorem bit_fieldOf (b : BitVec 1) : (fieldOf b).bit = b := by revert b; decide

theorem selOf_eq_iff {b : BitVec 1} {sel : Sel} : selOf b = sel ↔ b = sel.bit :=
  ⟨fun h => by rw [← h, bit_selOf], fun h => by rw [h, selOf_bit]⟩
theorem fieldOf_eq_iff {b : BitVec 1} {field : Field} : fieldOf b = field ↔ b = field.bit :=
  ⟨fun h => by rw [← h, bit_fieldOf], fun h => by rw [h, fieldOf_bit]⟩

/-- The four values of a METHOD (R122). -/
theorem method_cases (m : BitVec 2) : m = 0#2 ∨ m = 1#2 ∨ m = 2#2 ∨ m = 3#2 := by
  revert m
  decide

/-- Appending places the upper word's value above the lower word's bits. -/
theorem toNat_append_add {m n : Nat} (x : BitVec m) (y : BitVec n) : (x ++ y).toNat = x.toNat * 2 ^ n + y.toNat := by
  rw [BitVec.toNat_append, ← Nat.shiftLeft_add_eq_or_of_lt y.isLt, Nat.shiftLeft_eq]

/-- An assembled word has the fields it was assembled from, and its reserved bits are 0 (R110). -/
theorem fieldsOf_assemble (op : BitVec 4) (method : BitVec 2) (sel : BitVec 1) (role : BitVec 2) (field : BitVec 1) :
    fieldsOf (assemble op method sel role field) = ⟨op, method, sel, role, field, 0#2, 0#1, 0#19⟩ := by
  have hop := op.isLt
  have hmethod := method.isLt
  have hsel := sel.isLt
  have hrole := role.isLt
  have hfield := field.isLt
  simp only [fieldsOf, assemble, Fields.mk.injEq, BitVec.toNat_eq, BitVec.extractLsb'_toNat, toNat_append_add,
    Nat.shiftRight_eq_div_pow, BitVec.toNat_ofNat]
  omega

/-! ### The decoder inverts the encoder -/

/-- A check that refuses when its condition holds passes exactly when it fails. -/
theorem ite_error_eq_ok {c : Prop} [Decidable c] {e : DecodeError} {x : Except DecodeError Instr} :
    (if c then .error e else x) = .ok i ↔ ¬c ∧ x = .ok i := by
  split <;> simp [*]

/-- The same with the condition that must hold, as `simp` turns a check of `x ≠ y`. -/
theorem ite_else_error_eq_ok {c : Prop} [Decidable c] {e : DecodeError} {x : Except DecodeError Instr} :
    (if c then x else .error e) = .ok i ↔ c ∧ x = .ok i := by
  split <;> simp [*]

/-- The word of a well-formed command decodes to it (R130). -/
theorem decode_encode (h : i.wf = true) : decode (encode i) = .ok i := by
  unfold decode
  cases i with
  | nop | runNearest | runBilinear | runFourTap | clear => decide
  | layout sel => simp [encode, fieldsOf_assemble, decodeFields]
  | locate sel role field
  | scalePlaneNearest role field | scalePlaneBilinear role field | scalePlaneFourTap role field =>
    have hrole : role ≠ 3#2 := by simpa [Instr.wf, roleAllowed] using h
    simp [encode, fieldsOf_assemble, decodeFields, hrole]

/-- The METHOD of fields that stand for a command is the METHOD of the command's row (R122, R130). -/
theorem decodeFields_method (h : decodeFields f = .ok i) : f.method = i.row.pattern.extractLsb' 4 2 := by
  have hop := decodeFields_op h
  obtain ⟨op, method, sel, role, field, res76, res9, res31⟩ := f
  obtain rfl : op = _ := hop
  cases i with
  | nop | layout _ | locate _ _ _ | clear =>
    simp_all [decodeFields, Instr.row, ite_error_eq_ok, ite_else_error_eq_ok]
  | scalePlaneNearest _ _ | scalePlaneBilinear _ _ | scalePlaneFourTap _ _ | runNearest | runBilinear | runFourTap =>
    rcases method_cases method with rfl | rfl | rfl | rfl <;>
      simp [decodeFields, Instr.row, ite_error_eq_ok, ite_else_error_eq_ok] at h ⊢

/-- The reserved bits of fields that stand for a command are 0 (R112). -/
theorem decodeFields_reserved (h : decodeFields f = .ok i) : f.res76 = 0#2 ∧ f.res9 = 0#1 ∧ f.res31 = 0#19 := by
  simpa using (ite_error_eq_ok.1 h).1

/-- Fields stand for no command but a well-formed one whose word has them (R112, R113). -/
theorem fields_of_decodeFields (h : decodeFields f = .ok i) : i.wf = true ∧ f = fieldsOf (encode i) := by
  have hop := decodeFields_op h
  have hmethod := decodeFields_method h
  have hreserved := decodeFields_reserved h
  obtain ⟨op, method, sel, role, field, res76, res9, res31⟩ := f
  obtain rfl : op = _ := hop
  obtain rfl : method = _ := hmethod
  obtain ⟨rfl, rfl, rfl⟩ : res76 = 0#2 ∧ res9 = 0#1 ∧ res31 = 0#19 := hreserved
  cases i with
  | nop | runNearest | runBilinear | runFourTap | clear =>
    have hzero : sel = 0#1 ∧ role = 0#2 ∧ field = 0#1 := by
      simpa [decodeFields, Instr.row, ite_error_eq_ok] using h
    obtain ⟨rfl, rfl, rfl⟩ := hzero
    exact ⟨rfl, by simp [encode, fieldsOf_assemble, Instr.row]⟩
  | layout s =>
    have hsel : (role = 0#2 ∧ field = 0#1) ∧ sel = s.bit := by
      simpa [decodeFields, Instr.row, ite_error_eq_ok, selOf_eq_iff] using h
    obtain ⟨⟨rfl, rfl⟩, rfl⟩ := hsel
    exact ⟨rfl, by simp [encode, fieldsOf_assemble, Instr.row]⟩
  | locate s r fl =>
    have hoperands : role ≠ 3#2 ∧ sel = s.bit ∧ role = r ∧ field = fl.bit := by
      simpa [decodeFields, Instr.row, ite_error_eq_ok, selOf_eq_iff, fieldOf_eq_iff] using h
    obtain ⟨hrole, rfl, rfl, rfl⟩ := hoperands
    exact ⟨bne_iff_ne.2 hrole, by simp [encode, fieldsOf_assemble, Instr.row]⟩
  | scalePlaneNearest r fl | scalePlaneBilinear r fl | scalePlaneFourTap r fl =>
    have hoperands : sel = 0#1 ∧ role ≠ 3#2 ∧ role = r ∧ field = fl.bit := by
      simpa [decodeFields, Instr.row, ite_error_eq_ok, ite_else_error_eq_ok, fieldOf_eq_iff] using h
    obtain ⟨rfl, hrole, rfl, rfl⟩ := hoperands
    exact ⟨bne_iff_ne.2 hrole, by simp [encode, fieldsOf_assemble, Instr.row]⟩

/-- Settles O1: the fields of a word determine it, and those a command decodes from are its own word's. -/
theorem decodeInvertsEncode : Obligations.DecodeInvertsEncode := by
  unfold Obligations.DecodeInvertsEncode
  intro w i
  constructor
  · intro h
    obtain ⟨hwf, hf⟩ := fields_of_decodeFields h
    exact ⟨hwf, fieldsOf_injective hf.symm⟩
  · rintro ⟨hwf, rfl⟩
    exact decode_encode hwf

/-- Settles O3: each listed word is the encoding of its command. -/
theorem listedWordsDecode : Obligations.ListedWordsDecode := by
  unfold Obligations.ListedWordsDecode
  exact ⟨decode_encode (i := .nop) rfl, decode_encode (i := .layout .dst) rfl,
    decode_encode (i := .locate .dst 2#2 .f1) rfl, decode_encode (i := .scalePlaneNearest 1#2 .f0) rfl,
    decode_encode (i := .scalePlaneBilinear 2#2 .f1) rfl, decode_encode (i := .scalePlaneFourTap 0#2 .f0) rfl,
    decode_encode (i := .runNearest) rfl, decode_encode (i := .runBilinear) rfl,
    decode_encode (i := .runFourTap) rfl, decode_encode (i := .clear) rfl⟩

end Sys2Proof
end

section
/-! SUPPORT. Legal fields: the seven conditions of R127 read off a word's fields, and the commands that have such fields
(spec 30_encoding.md R110, R112, R127). -/

namespace Sys2Proof

open Sys2Proof.Machine Sys2Proof.Claims

variable {f : Fields} {i : Instr} {w : Word} {il : Bool}

/-! ### The seven conditions -/

/-- The fields of a legal word, in the positive: none of the conditions of R127 holds. Condition 4 needs no clause of its
own: OP = 5 uses no other field (R110), so conditions 2 and 3 cover it. -/
structure Fields.Legal (f : Fields) (il : Bool) : Prop where
  /-- Not condition 1. -/
  op : f.op.toNat ≤ 5
  /-- Not condition 2. -/
  reserved : f.res76 = 0#2 ∧ f.res9 = 0#1 ∧ f.res31 = 0#19
  /-- Not condition 3 of METHOD. -/
  methodUnused : f.op.toNat ≠ 3 → f.op.toNat ≠ 4 → f.method = 0#2
  /-- Not condition 3 of SEL. -/
  selUnused : f.op.toNat ≠ 1 → f.op.toNat ≠ 2 → f.sel = 0#1
  /-- Not condition 3 of ROLE and FIELD. -/
  operandsUnused : f.op.toNat ≠ 2 → f.op.toNat ≠ 3 → f.role = 0#2 ∧ f.field = 0#1
  /-- Not condition 5. -/
  method : f.op.toNat = 3 ∨ f.op.toNat = 4 → f.method ≠ 3#2
  /-- Not condition 6. -/
  role : f.op.toNat = 2 ∨ f.op.toNat = 3 → f.role ≠ 3#2
  /-- Not condition 7. -/
  field : f.op.toNat = 2 ∨ f.op.toNat = 3 → f.field = 1#1 → il = true

/-- Legal fields with OP = 5 are CLEAR's (R127 condition 4). -/
theorem Fields.Legal.eq_clear (h : f.Legal il) (hop : f.op.toNat = 5) : f = fieldsOf clearWord := by
  have hop' : f.op = 5#4 := BitVec.eq_of_toNat_eq hop
  have hmethod := h.methodUnused (by omega) (by omega)
  have hsel := h.selUnused (by omega) (by omega)
  obtain ⟨hrole, hfield⟩ := h.operandsUnused (by omega) (by omega)
  obtain ⟨h76, h9, h31⟩ := h.reserved
  calc f = ⟨f.op, f.method, f.sel, f.role, f.field, f.res76, f.res9, f.res31⟩ := rfl
    _ = fieldsOf clearWord := by rw [hop', hmethod, hsel, hrole, hfield, h76, h9, h31]; rfl

/-- A word is illegal exactly when its fields are not legal (R127). -/
theorem illegal_iff : Illegal w il ↔ ¬(fieldsOf w).Legal il := by
  constructor
  · intro h hl
    obtain ⟨h76, h9, h31⟩ := hl.reserved
    rcases h with h1 | (h2 | h2 | h2) | (⟨h3, h4, hm⟩ | ⟨h1, h2, hs⟩ | ⟨h2, h3, hr | hf⟩) | ⟨h5, hw⟩ | ⟨ho, hm⟩ |
      ⟨ho, hr⟩ | ⟨ho, hf, hil⟩
    · exact Nat.not_le.2 h1 hl.op
    · exact h2 h76
    · exact h2 h9
    · exact h2 h31
    · exact hm (hl.methodUnused h3 h4)
    · exact hs (hl.selUnused h1 h2)
    · exact hr (hl.operandsUnused h2 h3).1
    · exact hf (hl.operandsUnused h2 h3).2
    · exact hw (fieldsOf_injective (hl.eq_clear h5))
    · exact hl.method ho hm
    · exact hl.role ho hr
    · exact Bool.false_ne_true (hil ▸ hl.field ho hf)
  · refine not_imp_comm.1 fun h => ?_
    simp only [Illegal, not_or, not_and, not_not, Nat.not_le, Bool.not_eq_false] at h
    obtain ⟨hop, ⟨h76, h9, h31⟩, ⟨hmethodUnused, hselUnused, hoperandsUnused⟩, -, hmethod, hrole, hfield⟩ := h
    exact ⟨Nat.le_of_lt_succ hop, ⟨h76, h9, h31⟩, hmethodUnused, hselUnused, hoperandsUnused, hmethod, hrole, hfield⟩

/-! ### The commands of legal fields -/

theorem fieldAllowed_iff {field : Field} : fieldAllowed il field = true ↔ (field.bit = 1#1 → il = true) := by
  cases field <;> simp [fieldAllowed, Field.bit]

/-- A legal command is well-formed (R127 condition 6). -/
theorem wf_of_legal (h : i.legal il = true) : i.wf = true := (Bool.and_eq_true_iff.1 h).1

/-- The fields of a command's word are legal exactly when the command is (R127 conditions 6 and 7). -/
theorem legal_encode : (fieldsOf (encode i)).Legal il ↔ i.legal il = true := by
  cases i with
  | nop | layout s | runNearest | runBilinear | runFourTap | clear =>
    refine ⟨fun _ => rfl, fun _ => ?_⟩
    constructor <;> simp [encode, fieldsOf_assemble]
  | locate s role field
  | scalePlaneNearest role field | scalePlaneBilinear role field | scalePlaneFourTap role field =>
    simp only [encode, fieldsOf_assemble, Instr.legal, Instr.wf, Bool.and_eq_true, fieldAllowed_iff]
    constructor
    · exact fun h => ⟨bne_iff_ne.2 (h.role (by simp)), h.field (by simp)⟩
    · rintro ⟨hrole, hfield⟩
      constructor
      case role => exact fun _ => bne_iff_ne.1 hrole
      case field => exact fun _ => hfield
      all_goals simp

/-- The six values of an OP that is not reserved (R113). -/
theorem op_cases (op : BitVec 4) (h : op.toNat ≤ 5) :
    op = 0#4 ∨ op = 1#4 ∨ op = 2#4 ∨ op = 3#4 ∨ op = 4#4 ∨ op = 5#4 := by
  revert op
  decide

/-- Legal fields are those of some command's word (R130). -/
theorem exists_command (h : f.Legal il) : ∃ i, fieldsOf (encode i) = f := by
  obtain ⟨hop, ⟨h76, h9, h31⟩, hmethodUnused, hselUnused, hoperandsUnused, hmethod, -, -⟩ := h
  obtain ⟨op, method, sel, role, field, res76, res9, res31⟩ := f
  obtain ⟨rfl, rfl, rfl⟩ : res76 = 0#2 ∧ res9 = 0#1 ∧ res31 = 0#19 := ⟨h76, h9, h31⟩
  rcases op_cases op hop with rfl | rfl | rfl | rfl | rfl | rfl
  · exact ⟨.nop, by simp_all [encode, fieldsOf_assemble]⟩
  · exact ⟨.layout (selOf sel), by simp_all [encode, fieldsOf_assemble]⟩
  · exact ⟨.locate (selOf sel) role (fieldOf field), by simp_all [encode, fieldsOf_assemble]⟩
  · rcases method_cases method with rfl | rfl | rfl | rfl
    · exact ⟨.scalePlaneNearest role (fieldOf field), by simp_all [encode, fieldsOf_assemble]⟩
    · exact ⟨.scalePlaneBilinear role (fieldOf field), by simp_all [encode, fieldsOf_assemble]⟩
    · exact ⟨.scalePlaneFourTap role (fieldOf field), by simp_all [encode, fieldsOf_assemble]⟩
    · exact absurd rfl (hmethod (by simp))
  · rcases method_cases method with rfl | rfl | rfl | rfl
    · exact ⟨.runNearest, by simp_all [encode, fieldsOf_assemble]⟩
    · exact ⟨.runBilinear, by simp_all [encode, fieldsOf_assemble]⟩
    · exact ⟨.runFourTap, by simp_all [encode, fieldsOf_assemble]⟩
    · exact absurd rfl (hmethod (by simp))
  · exact ⟨.clear, by simp_all [encode, fieldsOf_assemble]⟩

/-- A word's fields are legal exactly when it decodes to a legal command. -/
theorem legal_iff_decodes : (fieldsOf w).Legal il ↔ ∃ i, decode w = .ok i ∧ i.legal il = true := by
  constructor
  · intro h
    obtain ⟨i, hi⟩ := exists_command h
    obtain rfl := fieldsOf_injective hi
    have hl := legal_encode.1 h
    exact ⟨i, decode_encode (wf_of_legal hl), hl⟩
  · rintro ⟨i, hd, hl⟩
    obtain ⟨-, rfl⟩ := (decodeInvertsEncode w i).1 hd
    exact legal_encode.2 hl

/-- Settles O4: both say that the word's fields are not legal. -/
theorem illegalWordsAreTheSevenConditions : Obligations.IllegalWordsAreTheSevenConditions := by
  unfold Obligations.IllegalWordsAreTheSevenConditions
  exact fun w il => illegal_iff.trans (not_congr legal_iff_decodes)

end Sys2Proof
end

section
/-! SUPPORT. The rows of the opcode table: what each fixes, and how a word that matches one is legal (spec 30_encoding.md
R110, R113, R130). -/

namespace Sys2Proof

open Sys2Proof.Machine Sys2Proof.Claims Sys2Proof.Laws

variable {i : Instr} {w : Word} {il : Bool} {row : OpcodeRow}

/-! ### What the rows fix -/

/-- A word that matches a row has the row's value in a field the mask covers (R130). -/
theorem extractLsb'_of_fixed {w mask pattern : Word} {k n : Nat} (h : w &&& mask = pattern)
    (hmask : mask.extractLsb' k n = BitVec.allOnes n) : w.extractLsb' k n = pattern.extractLsb' k n := by
  rw [← h, BitVec.extractLsb'_and, hmask, BitVec.and_allOnes]

/-- Every row fixes OP, to a value that is not reserved (R113, R130). -/
theorem row_fixes_op : ∀ row ∈ opcodeTable,
    (fieldsOf row.mask).op = BitVec.allOnes 4 ∧ (fieldsOf row.pattern).op.toNat ≤ 5 := by
  decide

/-- Every row fixes METHOD, to 0 where the OP does not use it (R110, R122, R130). -/
theorem row_fixes_method : ∀ row ∈ opcodeTable,
    (fieldsOf row.mask).method = BitVec.allOnes 2 ∧ (fieldsOf row.pattern).method ≠ 3#2 ∧
      ((fieldsOf row.pattern).op.toNat ≠ 3 → (fieldsOf row.pattern).op.toNat ≠ 4 →
        (fieldsOf row.pattern).method = 0#2) := by
  decide

/-- Every row fixes the reserved bits to 0 (R112, R130). -/
theorem row_fixes_reserved : ∀ row ∈ opcodeTable,
    ((fieldsOf row.mask).res76 = BitVec.allOnes 2 ∧ (fieldsOf row.pattern).res76 = 0#2) ∧
    ((fieldsOf row.mask).res9 = BitVec.allOnes 1 ∧ (fieldsOf row.pattern).res9 = 0#1) ∧
    ((fieldsOf row.mask).res31 = BitVec.allOnes 19 ∧ (fieldsOf row.pattern).res31 = 0#19) := by
  decide

/-- A row without a SEL operand fixes SEL to 0 (R110, R130). -/
theorem row_fixes_sel : ∀ row ∈ opcodeTable,
    (fieldsOf row.pattern).op.toNat ≠ 1 → (fieldsOf row.pattern).op.toNat ≠ 2 →
      (fieldsOf row.mask).sel = BitVec.allOnes 1 ∧ (fieldsOf row.pattern).sel = 0#1 := by
  decide

/-- The rows with a ROLE and a FIELD operand are those of LOCATE and SCALE_PLANE (R110, R130). -/
theorem row_operands : ∀ row ∈ opcodeTable,
    ((fieldsOf row.mask).role = 0#2 ↔ (fieldsOf row.pattern).op.toNat = 2 ∨ (fieldsOf row.pattern).op.toNat = 3) ∧
    ((fieldsOf row.mask).field = 0#1 ↔ (fieldsOf row.pattern).op.toNat = 2 ∨ (fieldsOf row.pattern).op.toNat = 3) := by
  decide

/-- Every other row fixes ROLE and FIELD to 0 (R110, R130). -/
theorem row_fixes_operands : ∀ row ∈ opcodeTable,
    (fieldsOf row.pattern).op.toNat ≠ 2 → (fieldsOf row.pattern).op.toNat ≠ 3 →
      ((fieldsOf row.mask).role = BitVec.allOnes 2 ∧ (fieldsOf row.pattern).role = 0#2) ∧
      ((fieldsOf row.mask).field = BitVec.allOnes 1 ∧ (fieldsOf row.pattern).field = 0#1) := by
  decide

/-! ### The words of a row -/

/-- The side conditions of a row are what is left of legality once a word matches the row (R130). -/
theorem legal_iff_sideConditions (hrow : row ∈ opcodeTable) (h : w &&& row.mask = row.pattern) :
    (fieldsOf w).Legal il ↔ SideConditions row w il := by
  obtain ⟨hopMask, hopLe⟩ := row_fixes_op row hrow
  obtain ⟨hmethodMask, hmethod, hmethodUnused⟩ := row_fixes_method row hrow
  obtain ⟨⟨hm76, h76⟩, ⟨hm9, h9⟩, ⟨hm31, h31⟩⟩ := row_fixes_reserved row hrow
  obtain ⟨hroleMask, hfieldMask⟩ := row_operands row hrow
  have hop : (fieldsOf w).op = (fieldsOf row.pattern).op := extractLsb'_of_fixed h hopMask
  have hmethodEq : (fieldsOf w).method = (fieldsOf row.pattern).method := extractLsb'_of_fixed h hmethodMask
  rw [← hop] at hopLe hmethodUnused hroleMask hfieldMask
  rw [← hmethodEq] at hmethod hmethodUnused
  constructor
  · exact fun hl => ⟨fun hr => hl.role (hroleMask.1 hr), fun hf => hl.field (hfieldMask.1 hf)⟩
  · rintro ⟨hrole, hfield⟩
    exact {
      op := hopLe
      reserved := ⟨(extractLsb'_of_fixed h hm76).trans h76, (extractLsb'_of_fixed h hm9).trans h9,
        (extractLsb'_of_fixed h hm31).trans h31⟩
      methodUnused := hmethodUnused
      selUnused := fun h1 h2 => by
        obtain ⟨hmask, hzero⟩ := row_fixes_sel row hrow (hop ▸ h1) (hop ▸ h2)
        exact (extractLsb'_of_fixed h hmask).trans hzero
      operandsUnused := fun h2 h3 => by
        obtain ⟨⟨hmr, hr⟩, hmf, hf⟩ := row_fixes_operands row hrow (hop ▸ h2) (hop ▸ h3)
        exact ⟨(extractLsb'_of_fixed h hmr).trans hr, (extractLsb'_of_fixed h hmf).trans hf⟩
      method := fun _ => hmethod
      role := fun ho => hrole (hroleMask.2 ho)
      field := fun ho => hfield (hfieldMask.2 ho) }

/-- Two rows differ in a bit that both fix (R130). -/
theorem opcodeTable_disjoint : ∀ r ∈ opcodeTable, ∀ q ∈ opcodeTable,
    r.pattern &&& q.mask = q.pattern &&& r.mask → r = q := by
  decide

/-- No word matches two rows (R130). -/
theorem row_unique {r q : OpcodeRow} (hr : r ∈ opcodeTable) (hq : q ∈ opcodeTable) (hwr : w &&& r.mask = r.pattern)
    (hwq : w &&& q.mask = q.pattern) : r = q := by
  refine opcodeTable_disjoint r hr q hq ?_
  rw [← hwr, ← hwq, BitVec.and_assoc, BitVec.and_assoc, BitVec.and_comm r.mask]

theorem row_mem_opcodeTable (i : Instr) : i.row ∈ opcodeTable := by
  cases i <;> simp [opcodeTable, Instr.row]

/-- A command's word matches its row (R130). -/
theorem encode_matches_row (i : Instr) : encode i &&& i.row.mask = i.row.pattern := by
  have h : EncodeRow.Statement i := by
    cases i with
    | nop => exact EncodeRow.nop
    | layout sel => exact EncodeRow.layout sel
    | locate sel role field => exact EncodeRow.locate sel role field
    | scalePlaneNearest role field => exact EncodeRow.scalePlaneNearest role field
    | scalePlaneBilinear role field => exact EncodeRow.scalePlaneBilinear role field
    | scalePlaneFourTap role field => exact EncodeRow.scalePlaneFourTap role field
    | runNearest => exact EncodeRow.runNearest
    | runBilinear => exact EncodeRow.runBilinear
    | runFourTap => exact EncodeRow.runFourTap
    | clear => exact EncodeRow.clear
  exact eq_of_beq h

/-- A word matches the row of the command it decodes to (R130). -/
theorem decode_matches_row (h : decode w = .ok i) : w &&& i.row.mask = i.row.pattern := by
  obtain ⟨-, rfl⟩ := (decodeInvertsEncode w i).1 h
  exact encode_matches_row i

/-- Settles O2: a word that matches a row is legal under the row's side conditions, and matches no other row. -/
theorem decodeFollowsOpcodeTable : Obligations.DecodeFollowsOpcodeTable := by
  unfold Obligations.DecodeFollowsOpcodeTable
  refine ⟨fun w il i hd hl => ?legal, fun w il row hrow hw hside => ?matched, fun w r q => row_unique⟩
  case legal =>
    have hw := decode_matches_row hd
    have hrow := row_mem_opcodeTable i
    exact ⟨hrow, hw, (legal_iff_sideConditions hrow hw).1 (legal_iff_decodes.2 ⟨i, hd, hl⟩)⟩
  case matched =>
    obtain ⟨i, hd, hl⟩ := legal_iff_decodes.1 ((legal_iff_sideConditions hrow hw).2 hside)
    exact ⟨i, hd, hl, row_unique (row_mem_opcodeTable i) hrow (decode_matches_row hd) hw⟩

end Sys2Proof
end

section
/-! SUPPORT. The layout of a frame: its planes by FMT code, how they fit the buffer and the L_ registers, and the LAYOUT
command (spec 41_geometry.md R142 to R160; 60_exceptions.md R316). -/

namespace Sys2Proof.Machine

open Sys2Proof.Claims

variable {s : State} {sel : Sel} {fmt : Format} {w h : Nat} {g : PlaneGeom} {code : ErrorCode} {l : Layout}

/-! ### The table by FMT code -/

/-- A planar layout: each chroma plane lies behind the planes before it (R148, R149). -/
theorem placePlanes_planarRows (fmt : Format) (luma : PlaneRow) (w h stride : Nat) :
    placePlanes 0 (planarRows fmt luma w h stride) =
      [⟨luma.role, luma.w, luma.h, luma.ah, luma.stride, 0⟩,
        ⟨fmt.chromaRoles.1, w, h, h, stride, luma.stride * luma.ah⟩,
        ⟨fmt.chromaRoles.2, w, h, h, stride, luma.stride * luma.ah + stride * h⟩] := by
  simp [planarRows, placePlanes]

/-- The codes outside the catalog are 24 to 31 (R120, R311). -/
theorem Format.ofCode_eq_none_iff : ∀ c : BitVec 5, Format.ofCode c = none ↔ 24 ≤ c.toNat := by
  decide

/-- A format's code is its number in the catalog (R120). -/
theorem Format.toNat_of_ofCode : ∀ c : BitVec 5, ∀ fmt ∈ Format.ofCode c, c.toNat = catalog.idxOf fmt := by
  decide

/-- Settles O21: a code of the catalog is known from its format, whose layout is the table's row. -/
theorem layoutTableByCode : Obligations.LayoutTableByCode := by
  unfold Obligations.LayoutTableByCode
  intro code w h
  cases hfmt : Format.ofCode code with
  | none =>
    have hcode := (Format.ofCode_eq_none_iff code).1 hfmt
    simp (disch := omega) only [Option.map_none, if_neg]
  | some fmt =>
    rw [Format.toNat_of_ofCode code fmt hfmt]
    cases fmt with
    | y444 | y42b | i420 | yv12 | y41b => exact congrArg some (placePlanes_planarRows ..)
    | _ => rfl

/-! ### The planes in the buffer -/

/-- No plane of a frame with pixels is empty in height (R142). -/
theorem layout_one_le_h (hh : 1 ≤ h) (hg : g ∈ layout fmt w h) : 1 ≤ g.h := by
  obtain ⟨r, hr, -, -, hgh, -⟩ := mem_placePlanes hg
  have rows : ∀ r ∈ planeRows fmt w h, 1 ≤ r.h := by
    unfold planeRows planarRows
    cases fmt.layoutClass <;> simp [ceilDiv] <;> omega
  rw [hgh]
  exact rows r hr

/-- Strides are padded to words (R143). -/
theorem layout_stride_mod_four (hg : g ∈ layout fmt w h) : g.stride % 4 = 0 := by
  obtain ⟨r, hr, -, -, -, -, hgs⟩ := mem_placePlanes hg
  have rows : ∀ r ∈ planeRows fmt w h, r.stride % 4 = 0 := by
    unfold planeRows planarRows
    cases fmt.layoutClass <;> simp [roundUp] <;> omega
  rw [hgs]
  exact rows r hr

/-- A stride holds the pixels of a row (R143). -/
theorem layout_pixels_le_stride (hg : g ∈ layout fmt w h) : bytesPerPixel fmt * g.w ≤ g.stride := by
  obtain ⟨r, hr, -, hgw, -, -, hgs⟩ := mem_placePlanes hg
  have rows : ∀ r ∈ planeRows fmt w h, bytesPerPixel fmt * r.w ≤ r.stride := by
    unfold planeRows planarRows bytesPerPixel
    cases fmt.layoutClass <;> simp [roundUp, ceilDiv] <;> omega
  rw [hgw, hgs]
  exact rows r hr

theorem one_le_bytesPerPixel (fmt : Format) : 1 ≤ bytesPerPixel fmt := by
  unfold bytesPerPixel
  cases fmt.layoutClass <;> decide

theorem layout_w_le_stride (hg : g ∈ layout fmt w h) : g.w ≤ g.stride :=
  (Nat.le_mul_of_pos_left _ (one_le_bytesPerPixel fmt)).trans (layout_pixels_le_stride hg)

/-- A plane of a frame with pixels has a row and a byte in it, so neither factor of its size is above it (R149). -/
theorem layout_le_size (hw : 1 ≤ w) (hh : 1 ≤ h) (hg : g ∈ layout fmt w h) : g.stride ≤ g.size ∧ g.ah ≤ g.size :=
  have hstride : 1 ≤ g.stride := (layout_one_le_w hw hg).trans (layout_w_le_stride hg)
  have hah : 1 ≤ g.ah := (layout_one_le_h hh hg).trans (layout_h_le_ah hg)
  ⟨Nat.le_mul_of_pos_right _ hah, Nat.le_mul_of_pos_left _ hstride⟩

/-- Settles O22: laying planes out one after another keeps them apart; the rest is read off the table. -/
theorem layoutPlanesFillTheBuffer : Obligations.LayoutPlanesFillTheBuffer := by
  unfold Obligations.LayoutPlanesFillTheBuffer
  intro fmt w h hw hh
  refine ⟨fun g hg => ⟨?size, layout_stride_mod_four hg, layout_pixels_le_stride hg, layout_size_le_total hg⟩,
    placePlanes_ordered 0 _⟩
  case size =>
    exact (layout_one_le_h hh hg).trans ((layout_h_le_ah hg).trans (layout_le_size hw hh hg).2)

/-! ### The values of a layout -/

/-- The total is the sum of the sizes of the table's rows (R149). -/
theorem total_placePlanes (o : Nat) (rows : List PlaneRow) :
    Layout.total (placePlanes o rows) = (rows.map fun r => r.stride * r.ah).sum := by
  induction rows generalizing o with
  | nil => rfl
  | cons r rs ih => exact congrArg (r.stride * r.ah + ·) (ih _)

/-- The strides of the planes add up to at most four bytes a pixel of the widest frame (R142). -/
theorem planeRows_strides_le (hw : w ≤ 32767) : ((planeRows fmt w h).map PlaneRow.stride).sum ≤ 4 * 32767 := by
  unfold planeRows planarRows
  cases fmt.layoutClass <;> simp [roundUp] <;> omega

/-- No plane allocates more rows than the tallest frame rounded up (R146). -/
theorem planeRows_ah_le (hh : h ≤ 32767) : ∀ r ∈ planeRows fmt w h, r.ah ≤ 32768 := by
  unfold planeRows planarRows
  cases fmt.layoutClass <;> simp [roundUp, ceilDiv] <;> omega

/-- The bytes of the largest frame can be counted in 32 bits (R147). -/
theorem total_layout_lt (hw : w ≤ 32767) (hh : h ≤ 32767) : (layout fmt w h).total < 2 ^ 32 :=
  calc (layout fmt w h).total
      = ((planeRows fmt w h).map fun r => r.stride * r.ah).sum := total_placePlanes ..
    _ ≤ ((planeRows fmt w h).map fun r => r.stride * 32768).sum :=
      List.sum_le_sum fun r hr => Nat.mul_le_mul_left _ (planeRows_ah_le hh r hr)
    _ = ((planeRows fmt w h).map PlaneRow.stride).sum * 32768 := List.sum_map_mul_right ..
    _ ≤ 4 * 32767 * 32768 := Nat.mul_le_mul_right _ (planeRows_strides_le hw)
    _ < 2 ^ 32 := by decide

/-- The values of a plane that its L_ registers show fit in 32 bits (R61, R147). -/
def PlaneGeom.Fits (g : PlaneGeom) : Prop :=
  g.w < 2 ^ 32 ∧ g.h < 2 ^ 32 ∧ g.stride < 2 ^ 32 ∧ g.offset < 2 ^ 32 ∧ g.size < 2 ^ 32

/-- No value of a plane is above the total (R147). -/
theorem layout_fits (hw : 1 ≤ w ∧ w ≤ 32767) (hh : 1 ≤ h ∧ h ≤ 32767) (hg : g ∈ layout fmt w h) : g.Fits := by
  have htotal := total_layout_lt (fmt := fmt) hw.2 hh.2
  have hend := layout_size_le_total hg
  obtain ⟨hstride, hah⟩ := layout_le_size hw.1 hh.1 hg
  have hgw := layout_w_le_stride hg
  have hgh := layout_h_le_ah hg
  unfold PlaneGeom.Fits
  omega

/-- Settles O23: the total bounds every other value; the largest frame is evaluated format by format. -/
theorem layoutValuesFitRegisters : Obligations.LayoutValuesFitRegisters := by
  unfold Obligations.LayoutValuesFitRegisters
  refine ⟨fun fmt w h hw hw' hh hh' => ⟨total_layout_lt hw' hh', fun g hg => layout_fits ⟨hw, hw'⟩ ⟨hh, hh'⟩ hg⟩, ?_⟩
  intro fmt
  cases fmt <;> decide

/-- Settles O24: both strides are read off the table, and both sides round `w / 2` up to a multiple of 4. -/
theorem chromaStridesAgree : Obligations.ChromaStridesAgree := by
  unfold Obligations.ChromaStridesAgree
  intro w h _
  have hstride : ((w + 3) / 4 * 4 / 2 + 3) / 4 * 4 = (w + 7) / 8 * 8 / 2 := by omega
  refine ⟨hstride, ?_⟩
  rintro p (rfl | rfl) <;> exact ⟨_, _, rfl, rfl, rfl, rfl, hstride⟩

/-! ### The LAYOUT command -/

/-- Dimensions in range, in numbers (R9, R315). -/
theorem Dim.bounds_of_inRange {d : Dim} (hd : d.inRange = true) :
    (1 ≤ d.w.toNat ∧ d.w.toNat ≤ 32767) ∧ 1 ≤ d.h.toNat ∧ d.h.toNat ≤ 32767 :=
  and_assoc.2 (of_decide_eq_true hd)

/-- A code outside the catalog is reported whatever the dimensions (R311, R316 step 2). -/
theorem State.frameLayout_unsupportedFormat (hf : Format.ofCode s.format.fmt = none) :
    s.frameLayout sel = .error .unsupportedFormat := by
  simp [State.frameLayout, hf]

/-- Dimensions out of range are reported of a format of the catalog (R315, R316 step 3). -/
theorem State.frameLayout_invalidDimension (hf : Format.ofCode s.format.fmt = some fmt)
    (hd : ¬ (s.dimOf sel).inRange = true) : s.frameLayout sel = .error .invalidDimension := by
  simp [State.frameLayout, hf, hd]

theorem exec_layout_of_ok (hl : s.frameLayout sel = .ok l) :
    exec (.layout sel) s = .next ((s.publishLayout l).succeed false) := by
  rw [exec_layout, execLayout, hl]

theorem exec_layout_of_error (hl : s.frameLayout sel = .error code) :
    exec (.layout sel) s = .next (s.fail code) := by
  rw [exec_layout, execLayout, hl]

theorem toNat_ofNat_of_lt {k n : Nat} (hn : n < 2 ^ k) : (BitVec.ofNat k n).toNat = n := by
  rw [BitVec.toNat_ofNat, Nat.mod_eq_of_lt hn]

/-- Registers of 32 bits show the values that fit in them (R61, R160). -/
theorem planeShown_ofPlane {o : Option PlaneGeom} (ho : ∀ g ∈ o, g.Fits) : PlaneShown (PlaneRegs.ofPlane o) o := by
  cases o with
  | none => rfl
  | some g =>
    obtain ⟨hw, hh, hstride, hoffset, hsize⟩ := ho g rfl
    exact ⟨toNat_ofNat_of_lt hw, toNat_ofNat_of_lt hh, toNat_ofNat_of_lt hstride,
      toNat_ofNat_of_lt hoffset, toNat_ofNat_of_lt hsize, rfl⟩

/-- A layout has at most three planes, as many as L_NPLANES counts (R60, R142). -/
theorem length_layout_le (fmt : Format) (w h : Nat) : (layout fmt w h).length ≤ 3 := by
  rw [layout, length_placePlanes]
  unfold planeRows planarRows
  cases fmt.layoutClass <;> simp

/-- Settles O25: the checks of LAYOUT pass, and what it publishes fits in the registers. -/
theorem layoutPublishesTheLayout : Obligations.LayoutPublishesTheLayout := by
  unfold Obligations.LayoutPublishesTheLayout
  intro s sel fmt hf hw hh l
  have hrange := (Dim.inRange_iff _).2 ⟨hw, hh⟩
  obtain ⟨hw', hh'⟩ := Dim.bounds_of_inRange hrange
  have hshown : ∀ p : Nat, PlaneShown (PlaneRegs.ofPlane l[p]?) l[p]? := fun p =>
    planeShown_ofPlane fun g hg => layout_fits hw' hh' (List.mem_of_getElem? hg)
  exact ⟨_, exec_layout_of_ok (State.frameLayout_ok.2 ⟨fmt, hf, hrange, rfl⟩),
    toNat_ofNat_of_lt (Nat.lt_succ_of_le (length_layout_le ..)),
    toNat_ofNat_of_lt (total_layout_lt hw'.2 hh'.2), hshown 0, hshown 1, hshown 2, rfl⟩

/-- Settles O26: the format is looked up before the dimensions are tested. -/
theorem layoutErrors : Obligations.LayoutErrors := by
  unfold Obligations.LayoutErrors
  intro s sel
  constructor
  · intro hcode
    exact exec_layout_of_error (State.frameLayout_unsupportedFormat ((Format.ofCode_eq_none_iff _).2 hcode))
  · intro hcode hzero
    obtain ⟨fmt, hf⟩ := Option.ne_none_iff_exists'.1 (mt (Format.ofCode_eq_none_iff s.format.fmt).1 (by omega))
    have hrange : ¬ (s.dimOf sel).inRange = true := fun hd => by
      obtain ⟨hw, hh⟩ := (Dim.inRange_iff _).1 hd
      exact hzero.elim hw hh
    exact exec_layout_of_error (State.frameLayout_invalidDimension hf hrange)

end Sys2Proof.Machine
end

section
/-! SUPPORT. The plane locator: where the rows of a field lie, and the LOCATE command with its checks (spec
42_plane_locator.md R180 to R189; 60_exceptions.md R316, R317). -/

namespace Sys2Proof.Machine

variable {s : State} {sel : Sel} {code : BitVec 2} {role : Role} {field : Field} {fmt : Format} {w h base : Nat}
  {g : PlaneGeom} {il : Bool} {l : Layout} {e : EffGeom}

/-! ### The rows of a field -/

/-- The rows a field has are those that are rows of its plane (R181, R182). -/
theorem lt_locate_h_iff {r : Nat} : r < (locate g base field il).h ↔ fieldRow il field r < g.h := by
  refine ⟨fieldRow_lt, fun hr => ?_⟩
  unfold fieldRow at hr
  unfold locate
  cases il <;> cases field <;> simp [ceilDiv, Field.bit] at hr ⊢ <;> omega

/-- A row of a field starts where the physical row it is starts (R186). -/
theorem locate_row (g : PlaneGeom) (base : Nat) (field : Field) (il : Bool) (r : Nat) :
    (locate g base field il).ptr + r * (locate g base field il).stride =
      base + g.offset + fieldRow il field r * g.stride := by
  unfold locate fieldRow
  cases il <;> cases field <;> simp [Field.bit] <;> ring

/-- Settles O29: a row of a field is a physical row of the field's parity, and every row has one of the two parities. -/
theorem fieldsPartitionThePlane : Obligations.FieldsPartitionThePlane := by
  unfold Obligations.FieldsPartitionThePlane
  intro g base
  have even : ∀ r, r < (locate g base .f0 true).h ↔ 2 * r < g.h := fun r => lt_locate_h_iff
  have odd : ∀ r, r < (locate g base .f1 true).h ↔ 2 * r + 1 < g.h := fun r => lt_locate_h_iff
  refine ⟨fun k hk hiff => ?partition, fun r hr => ⟨(even r).1 hr, locate_row g base .f0 true r⟩,
    fun r hr => ⟨(odd r).1 hr, locate_row g base .f1 true r⟩⟩
  case partition =>
    obtain ⟨m, rfl | rfl⟩ := Nat.even_or_odd' k
    · obtain ⟨r, -, hr⟩ := hiff.1 ⟨m, (even m).2 hk, rfl⟩
      omega
    · obtain ⟨r, -, hr⟩ := hiff.2 ⟨m, (odd m).2 hk, rfl⟩
      omega

/-! ### The effective geometry in the LOC_ registers -/

/-- Field 1 starts one row below its plane (R181, R182). -/
theorem locate_ptr (hfield : field = .f1 → il = true) :
    (locate g base field il).ptr = base + g.offset + if field = .f1 then g.stride else 0 := by
  cases field with
  | f0 => cases il <;> rfl
  | f1 => rw [hfield rfl]; rfl

/-- Field 0 has the odd row of a plane (R182). -/
theorem locate_h (g : PlaneGeom) (base : Nat) (field : Field) (il : Bool) :
    (locate g base field il).h = if il then (if field = .f0 then (g.h + 1) / 2 else g.h / 2) else g.h := by
  cases il <;> cases field <;> rfl

/-- The rows of a field are two strides apart (R182). -/
theorem locate_stride (g : PlaneGeom) (base : Nat) (field : Field) (il : Bool) :
    (locate g base field il).stride = if il then 2 * g.stride else g.stride := by
  cases il <;> cases field <;> rfl

/-- No stride is above four bytes a pixel of the widest frame (R142). -/
theorem layout_stride_le (hw : w ≤ 32767) (hg : g ∈ layout fmt w h) : g.stride ≤ 4 * 32767 := by
  obtain ⟨r, hr, -, -, -, -, hgs⟩ := mem_placePlanes hg
  rw [hgs]
  exact (List.le_sum_of_mem (List.mem_map_of_mem hr)).trans (planeRows_strides_le hw)

/-- The width, height and stride of an effective plane fit in 32 bits; only its pointer may wrap (R187). -/
theorem locate_fits (hw : 1 ≤ w ∧ w ≤ 32767) (hh : 1 ≤ h ∧ h ≤ 32767) (hg : g ∈ layout fmt w h) :
    (locate g base field il).w < 2 ^ 32 ∧ (locate g base field il).h < 2 ^ 32 ∧
      (locate g base field il).stride < 2 ^ 32 := by
  obtain ⟨hgw, hgh, -⟩ := layout_fits hw hh hg
  have hstride := layout_stride_le hw.2 hg
  rw [locate_w, locate_h, locate_stride]
  refine ⟨hgw, ?_, ?_⟩ <;> split_ifs <;> omega

/-! ### The checks of LOCATE -/

/-- Code 3 is the reserved one (R124). -/
theorem Role.ofCode_eq_none_iff : ∀ code : BitVec 2, Role.ofCode code = none ↔ code = 3#2 := by
  decide

/-- The reserved role, and field 1 of progressive content, are no legal command (R127 conditions 6 and 7). -/
theorem State.locateResult_illegalCommand (hillegal : code = 3#2 ∨ field = .f1 ∧ s.format.interlaced = false) :
    s.locateResult sel code field = .error .illegalCommand := by
  unfold State.locateResult
  cases hrole : Role.ofCode code with
  | none => rfl
  | some role =>
    have hcode : code ≠ 3#2 := fun hc => by simp [(Role.ofCode_eq_none_iff code).2 hc] at hrole
    obtain ⟨rfl, hil⟩ := hillegal.resolve_left hcode
    simp [fieldAllowed, hil]

/-- A legal LOCATE reports what the frame's layout fails by (R316 steps 2 and 3). -/
theorem State.locateResult_of_frameLayout_error {err : ErrorCode} (hrole : Role.ofCode code = some role)
    (hfield : field = .f1 → s.format.interlaced = true) (hl : s.frameLayout sel = .error err) :
    s.locateResult sel code field = .error err := by
  simp [State.locateResult, hrole, fieldAllowed_of hfield, hl]

/-- A role the format lacks is reported of a frame that has a layout (R316 step 4a). -/
theorem State.locateResult_planeRoleInvalid (hrole : Role.ofCode code = some role)
    (hfield : field = .f1 → s.format.interlaced = true) (hl : s.frameLayout sel = .ok l) (hp : l.planeOf role = none) :
    s.locateResult sel code field = .error .planeRoleInvalid := by
  simp [State.locateResult, hrole, fieldAllowed_of hfield, hl, hp]

/-- What a LOCATE publishes when its checks pass (R185). -/
theorem State.locateResult_of_planeOf (hrole : Role.ofCode code = some role)
    (hfield : field = .f1 → s.format.interlaced = true) (hl : s.frameLayout sel = .ok l)
    (hp : l.planeOf role = some g) :
    s.locateResult sel code field = .ok (locate g (s.baseOf sel).toNat field s.format.interlaced) := by
  simp [State.locateResult, hrole, fieldAllowed_of hfield, hl, hp]

/-- A format of the catalog has no layout without pixels (R315, R316 step 3). -/
theorem State.frameLayout_of_empty (hcode : s.format.fmt.toNat ≤ 23)
    (hzero : (s.dimOf sel).w = 0#15 ∨ (s.dimOf sel).h = 0#15) : s.frameLayout sel = .error .invalidDimension := by
  obtain ⟨fmt, hf⟩ := Option.ne_none_iff_exists'.1 (mt (Format.ofCode_eq_none_iff s.format.fmt).1 (by omega))
  refine State.frameLayout_invalidDimension hf fun hrange => ?_
  obtain ⟨hw, hh⟩ := (Dim.inRange_iff _).1 hrange
  exact hzero.elim hw hh

/-- The single plane of a format carries role Y (R148). -/
theorem layout_roles_single (hlen : (layout fmt w h).length = 1) : (layout fmt w h).map PlaneGeom.role = [.y] := by
  rw [layout, length_placePlanes] at hlen
  rw [layout, map_role_placePlanes]
  unfold planeRows planarRows at hlen ⊢
  cases hclass : fmt.layoutClass <;> simp [hclass] at hlen ⊢

/-- A format with one plane has none of role U or V (R148, R183). -/
theorem layout_planeOf_eq_none (hlen : (layout fmt w h).length = 1) (hrole : role ≠ .y) :
    (layout fmt w h).planeOf role = none := by
  refine List.find?_eq_none.2 fun g hg heq => hrole ?_
  have hy : g.role ∈ [Role.y] := layout_roles_single hlen ▸ List.mem_map_of_mem hg
  exact (eq_of_beq heq).symm.trans (List.mem_singleton.1 hy)

/-- The chroma codes are those of roles other than Y (R124). -/
theorem Role.ofCode_chroma : ∀ code : BitVec 2, code = 1#2 ∨ code = 2#2 → ∀ role ∈ Role.ofCode code, role ≠ .y := by
  decide

/-! ### The LOCATE command -/

theorem exec_locate_of_ok (hl : s.locateResult sel code field = .ok e) :
    exec (.locate sel code field) s = .next ((s.publishLocation e).succeed false) := by
  rw [exec_locate, execLocate, hl]

theorem exec_locate_of_error {err : ErrorCode} (hl : s.locateResult sel code field = .error err) :
    exec (.locate sel code field) s = .next (s.fail err) := by
  rw [exec_locate, execLocate, hl]

/-- Settles O27: the checks of LOCATE pass, and of what it publishes only the pointer may not fit in its register. -/
theorem locatePublishesTheGeometry : Obligations.LocatePublishesTheGeometry := by
  unfold Obligations.LocatePublishesTheGeometry
  rintro s sel _ field fmt g hf hw hh hg rfl hfield
  have hrange := (Dim.inRange_iff _).2 ⟨hw, hh⟩
  obtain ⟨hw', hh'⟩ := Dim.bounds_of_inRange hrange
  have hlayout := State.frameLayout_ok.2 ⟨fmt, hf, hrange, rfl⟩
  have hresult := State.locateResult_of_planeOf (Role.ofCode_code g.role) hfield hlayout (layout_planeOf hg)
  obtain ⟨hfitw, hfith, hfitstride⟩ := locate_fits (base := (s.baseOf sel).toNat) (field := field)
    (il := s.format.interlaced) hw' hh' hg
  exact ⟨_, exec_locate_of_ok hresult, (BitVec.toNat_ofNat ..).trans (congrArg (· % 2 ^ 32) (locate_ptr hfield)),
    (toNat_ofNat_of_lt hfitw).trans (locate_w ..), (toNat_ofNat_of_lt hfith).trans (locate_h ..),
    (toNat_ofNat_of_lt hfitstride).trans (locate_stride ..), rfl⟩

/-- Settles O28: the checks run in the order legality, format, dimensions, role. -/
theorem locateErrors : Obligations.LocateErrors := by
  unfold Obligations.LocateErrors
  intro s sel code field fails
  refine ⟨fun hillegal => exec_locate_of_error (State.locateResult_illegalCommand hillegal), fun hcode hfield => ?_⟩
  obtain ⟨role, hrole⟩ := Option.ne_none_iff_exists'.1 (mt (Role.ofCode_eq_none_iff code).1 hcode)
  refine ⟨fun hfmt => ?format, fun hfmt hzero => ?dimensions, fun fmt hf hw hh hchroma hlen => ?role⟩
  case format =>
    have hl := State.frameLayout_unsupportedFormat (sel := sel) ((Format.ofCode_eq_none_iff _).2 hfmt)
    exact exec_locate_of_error (State.locateResult_of_frameLayout_error hrole hfield hl)
  case dimensions =>
    have hl := State.frameLayout_of_empty hfmt hzero
    exact exec_locate_of_error (State.locateResult_of_frameLayout_error hrole hfield hl)
  case role =>
    have hl := State.frameLayout_ok.2 ⟨fmt, hf, (Dim.inRange_iff _).2 ⟨hw, hh⟩, rfl⟩
    have hp := layout_planeOf_eq_none hlen (Role.ofCode_chroma code hchroma role hrole)
    exact exec_locate_of_error (State.locateResult_planeRoleInvalid hrole hfield hl hp)

end Sys2Proof.Machine
end

section
/-! SUPPORT. The value of a kernel at one destination sample: the source coordinate, the blend of BILINEAR, the weighing
of 4TAP, and what each axis and the two passes make of them (spec 43_resample_kernels.md R200 to R206, R210, R215, R216,
R220 to R225). -/

namespace Sys2Proof.Machine

variable {taps : Config.TapTable} {method : Method} {src : Nat → Nat} {i k n nSrc nDst m a b f lo hi : Nat}

/-! ### The source coordinate -/

/-- The integer part of the source coordinate is the NEAREST index (R202, R210). -/
theorem srcIndex_eq (i nSrc nDst : Nat) : srcIndex i nSrc nDst = i * nSrc / nDst := by
  unfold srcIndex srcPos
  rw [Nat.div_div_eq_div_mul, Nat.mul_div_mul_right _ _ (by positivity)]

theorem srcFrac_lt (i nSrc nDst : Nat) : srcFrac i nSrc nDst < 65536 :=
  Nat.mod_lt _ (by decide)

/-- A phase is one of the 256 rows of the tap table (R221). -/
theorem phaseOf_srcFrac_lt (i nSrc nDst : Nat) : phaseOf (srcFrac i nSrc nDst) < 256 :=
  Nat.div_lt_of_lt_mul (srcFrac_lt i nSrc nDst)

/-- At equal extents the source coordinate is the index itself (R206). -/
theorem srcPos_self (hi : i < n) : srcPos i n n = i * 65536 := by
  unfold srcPos
  rw [Nat.mul_right_comm]
  exact Nat.mul_div_cancel _ (Nat.zero_lt_of_lt hi)

theorem srcIndex_self (hi : i < n) : srcIndex i n n = i := by
  rw [srcIndex, srcPos_self hi]
  exact Nat.mul_div_cancel _ (by decide)

theorem srcFrac_self (hi : i < n) : srcFrac i n n = 0 := by
  rw [srcFrac, srcPos_self hi]
  exact Nat.mul_mod_left _ _

/-- A source or a destination of extent 1 takes index 0 (R210). -/
theorem srcIndex_eq_zero (hs : 1 ≤ nSrc) (hi : i < nDst) (h : nSrc = 1 ∨ nDst = 1) : srcIndex i nSrc nDst = 0 := by
  rcases h with rfl | rfl
  · exact Nat.lt_one_iff.1 (srcIndex_lt hs hi)
  · rw [Nat.lt_one_iff.1 hi, srcIndex_eq, Nat.zero_mul, Nat.zero_div]

/-- Downscaling by the integer factor `k` takes every `k`-th sample (R210). -/
theorem srcIndex_of_factor (hi : i < nDst) (h : nSrc = k * nDst) : srcIndex i nSrc nDst = k * i := by
  rw [srcIndex_eq, h, ← Nat.mul_assoc, Nat.mul_div_cancel _ (Nat.zero_lt_of_lt hi), Nat.mul_comm]

/-! ### The edge rule and saturation -/

theorem clampIndex_of_lt (hk : k < n) : clampIndex k n = k := by
  unfold clampIndex
  omega

theorem clampIndex_pred (hk : k < n) : clampIndex (k - 1) n = k - 1 := by
  unfold clampIndex
  omega

theorem clampIndex_add_one (hn : 1 ≤ n) (k : Nat) : clampIndex (k + 1) n = min (k + 1) (n - 1) := by
  unfold clampIndex
  omega

theorem clampIndex_add_two (hn : 1 ≤ n) (k : Nat) : clampIndex (k + 2) n = min (k + 2) (n - 1) := by
  unfold clampIndex
  omega

theorem saturate_natCast (v m : Nat) : saturate v m = min v m := by
  unfold saturate
  omega

theorem saturate_eq_ite (v : Int) (m : Nat) :
    saturate v m = if v < 0 then 0 else if (m : Int) < v then m else v.toNat := by
  unfold saturate
  split_ifs <;> omega

/-! ### NEAREST -/

theorem nearestAxis_eq (src : Nat → Nat) (nSrc nDst i : Nat) :
    nearestAxis src nSrc nDst i = src (srcIndex i nSrc nDst) := by
  rw [srcIndex_eq, nearestAxis]

/-! ### BILINEAR -/

/-- Two neighbours at the fraction `f` of R215, rounded half up and clamped. -/
def blend (m a b f : Nat) : Nat := min ((a * (65536 - f) + b * f + 32768) / 65536) m

theorem bilinearAxis_eq_blend (src : Nat → Nat) (nSrc nDst m i : Nat) : bilinearAxis src nSrc nDst m i =
    blend m (src (srcIndex i nSrc nDst)) (src (clampIndex (srcIndex i nSrc nDst + 1) nSrc)) (srcFrac i nSrc nDst) :=
  saturate_natCast _ _

theorem bilinearAxis_eq (hs : 1 ≤ nSrc) : bilinearAxis src nSrc nDst m i =
    blend m (src (srcIndex i nSrc nDst)) (src (min (srcIndex i nSrc nDst + 1) (nSrc - 1))) (srcFrac i nSrc nDst) := by
  rw [bilinearAxis_eq_blend, clampIndex_add_one hs]

/-- A weighted mean of two samples lies between bounds of both, and so does its rounding (R216). -/
theorem blend_mem_Icc (hf : f ≤ 65536) (ha : a ∈ Set.Icc lo hi) (hb : b ∈ Set.Icc lo hi) (hm : hi ≤ m) :
    blend m a b f ∈ Set.Icc lo hi := by
  obtain ⟨g, hg⟩ := Nat.exists_eq_add_of_le hf
  have hlo : lo * 65536 ≤ a * g + b * f := by
    rw [hg]
    linarith [Nat.mul_le_mul_right g ha.1, Nat.mul_le_mul_right f hb.1]
  have hhi : a * g + b * f ≤ hi * 65536 := by
    rw [hg]
    linarith [Nat.mul_le_mul_right g ha.2, Nat.mul_le_mul_right f hb.2]
  have hlohi := ha.1.trans ha.2
  rw [blend, show 65536 - f = g by omega, Set.mem_Icc]
  omega

theorem bilinearAxis_mem_Icc (hs : 1 ≤ nSrc)
    (h : ∀ c, c = srcIndex i nSrc nDst ∨ c = min (srcIndex i nSrc nDst + 1) (nSrc - 1) → src c ∈ Set.Icc lo hi)
    (hm : hi ≤ m) : bilinearAxis src nSrc nDst m i ∈ Set.Icc lo hi := by
  rw [bilinearAxis_eq hs]
  exact blend_mem_Icc (srcFrac_lt ..).le (h _ (.inl rfl)) (h _ (.inr rfl)) hm

/-! ### 4TAP -/

/-- Four samples under the taps of a row, rounded half up by floor division and saturated (R225). -/
def weigh (t : Config.TapRow) (m s0 s1 s2 s3 : Nat) : Nat :=
  saturate ((t.t0 * s0 + t.t1 * s1 + t.t2 * s2 + t.t3 * s3 + 512) / 1024) m

theorem fourTapAxis_eq_weigh (taps : Config.TapTable) (src : Nat → Nat) (nSrc nDst m i : Nat) :
    fourTapAxis taps src nSrc nDst m i =
      weigh (tapRow taps (phaseOf (srcFrac i nSrc nDst))) m (src (clampIndex (srcIndex i nSrc nDst - 1) nSrc))
        (src (clampIndex (srcIndex i nSrc nDst) nSrc)) (src (clampIndex (srcIndex i nSrc nDst + 1) nSrc))
        (src (clampIndex (srcIndex i nSrc nDst + 2) nSrc)) :=
  congrArg (saturate · m) (Int.fdiv_eq_ediv_of_nonneg _ (by decide))

theorem fourTapAxis_eq (hs : 1 ≤ nSrc) (hi : i < nDst) : fourTapAxis taps src nSrc nDst m i =
    weigh (tapRow taps (phaseOf (srcFrac i nSrc nDst))) m (src (srcIndex i nSrc nDst - 1)) (src (srcIndex i nSrc nDst))
      (src (min (srcIndex i nSrc nDst + 1) (nSrc - 1))) (src (min (srcIndex i nSrc nDst + 2) (nSrc - 1))) := by
  have hk := srcIndex_lt hs hi
  rw [fourTapAxis_eq_weigh, clampIndex_pred hk, clampIndex_of_lt hk, clampIndex_add_one hs, clampIndex_add_two hs]

/-- Taps that sum to 1024 keep a constant (R224). -/
theorem weigh_const {t : Config.TapRow} {c : Nat} (ht : t.t0 + t.t1 + t.t2 + t.t3 = 1024) (hc : c ≤ m) :
    weigh t m c c c c = c := by
  have hacc : t.t0 * c + t.t1 * c + t.t2 * c + t.t3 * c = 1024 * c := by
    rw [← ht]
    ring
  rw [weigh, hacc, show (1024 * (c : Int) + 512) / 1024 = c by omega, saturate_natCast, min_eq_left hc]

/-- The unit row keeps the second sample (R224). -/
theorem weigh_unit (s0 s2 s3 : Nat) {c : Nat} (hc : c ≤ m) : weigh ⟨0, 1024, 0, 0⟩ m s0 c s2 s3 = c := by
  have hconst := weigh_const (t := ⟨0, 1024, 0, 0⟩) rfl hc
  simpa [weigh] using hconst

/-! ### One axis by every method -/

/-- Every method keeps a constant row or column, whatever the extents (R215, R224). -/
theorem axisSample_const {c : Nat} (hc : c ≤ m) (ht : method = .fourTap → ∀ ph, ph < 256 →
      (tapRow taps ph).t0 + (tapRow taps ph).t1 + (tapRow taps ph).t2 + (tapRow taps ph).t3 = 1024) :
    axisSample taps method (fun _ => c) nSrc nDst m i = c := by
  cases method with
  | nearest => rfl
  | bilinear =>
    rw [axisSample, bilinearAxis_eq_blend]
    have hmem := blend_mem_Icc (srcFrac_lt i nSrc nDst).le (Set.left_mem_Icc.2 le_rfl) (Set.left_mem_Icc.2 le_rfl) hc
    exact le_antisymm hmem.2 hmem.1
  | fourTap =>
    rw [axisSample, fourTapAxis_eq_weigh]
    exact weigh_const (ht rfl _ (phaseOf_srcFrac_lt ..)) hc

/-- At equal extents every method keeps a row or column (R206, R224). -/
theorem axisSample_self (hi : i < n) (hunit : tapRow taps 0 = ⟨0, 1024, 0, 0⟩) (hm : src i ≤ m) :
    axisSample taps method src n n m i = src i := by
  have hn : 1 ≤ n := Nat.one_le_of_lt hi
  cases method with
  | nearest => rw [axisSample, nearestAxis_eq, srcIndex_self hi]
  | bilinear =>
    rw [axisSample, bilinearAxis_eq hn, srcIndex_self hi, srcFrac_self hi, blend]
    omega
  | fourTap =>
    rw [axisSample, fourTapAxis_eq hn hi, srcIndex_self hi, srcFrac_self hi, show phaseOf 0 = 0 from rfl, hunit]
    exact weigh_unit _ _ _ hm

/-! ### The two passes of each method -/

theorem kernel_nearest (taps : Config.TapTable) (img : Nat → Nat → Nat) (sw sh dw dh m x y : Nat) :
    kernel taps .nearest img sw sh dw dh m x y = img (srcIndex x sw dw) (srcIndex y sh dh) := by
  simp only [kernel, axisSample, nearestAxis_eq]

theorem kernel_bilinear (taps : Config.TapTable) (img : Nat → Nat → Nat) (sw sh dw dh m x y : Nat) :
    kernel taps .bilinear img sw sh dw dh m x y =
      bilinearAxis (fun r => bilinearAxis (fun c => img c r) sw dw m x) sh dh m y := rfl

theorem kernel_fourTap (taps : Config.TapTable) (img : Nat → Nat → Nat) (sw sh dw dh m x y : Nat) :
    kernel taps .fourTap img sw sh dw dh m x y =
      fourTapAxis taps (fun r => fourTapAxis taps (fun c => img c r) sw dw m x) sh dh m y := rfl

/-! ### The statements about the kernels -/

/-- Settles O30: dividing by `nDst` and then by 65536 is dividing by both, in either order. -/
theorem sourceCoordinateInRange : Obligations.SourceCoordinateInRange := by
  unfold Obligations.SourceCoordinateInRange
  intro i nSrc nDst hs hi
  refine ⟨rfl, Nat.le_sub_one_of_lt (srcIndex_lt hs hi), srcIndex_eq .., srcFrac_lt .., ?_⟩
  rintro rfl
  exact ⟨srcIndex_self hi, srcFrac_self hi⟩

/-- Settles O31: both passes of NEAREST take the sample at the integer part of the source coordinate. -/
theorem nearestTakesTheFloorSample : Obligations.NearestTakesTheFloorSample := by
  unfold Obligations.NearestTakesTheFloorSample
  intro taps img sw sh dw dh m x y hsw hsh hx hy
  refine ⟨rfl, kernel_nearest .., srcIndex_eq_zero hsw hx, srcIndex_eq_zero hsh hy, fun k j hk hj => ?_⟩
  rw [kernel_nearest, srcIndex_of_factor hx hk, srcIndex_of_factor hy hj]

/-- Settles O59: each of the two passes is a blend of two neighbours. -/
theorem bilinearValue : Obligations.BilinearValue := by
  unfold Obligations.BilinearValue
  intro taps img sw sh dw dh m x y hsw hsh _ _
  simp only [kernel_bilinear, bilinearAxis_eq hsw, bilinearAxis_eq hsh, blend, srcIndex, srcFrac, srcPos,
    Config.fracBits, Nat.reducePow]

/-- Settles O32: the vertical pass blends two rows, each of which the horizontal pass leaves between the bounds. -/
theorem bilinearStaysBetweenItsSamples : Obligations.BilinearStaysBetweenItsSamples := by
  unfold Obligations.BilinearStaysBetweenItsSamples
  intro taps img sw sh dw dh m x y lo hi hsw hsh _ _ himg hm
  rw [kernel_bilinear]
  exact bilinearAxis_mem_Icc hsh (fun r hr => bilinearAxis_mem_Icc hsw (fun c hc => himg c r hc hr) hm) hm

/-- Settles O60: each of the two passes weighs four samples under the row of its phase. -/
theorem fourTapValue : Obligations.FourTapValue := by
  unfold Obligations.FourTapValue
  intro taps img sw sh dw dh m x y hsw hsh hx hy
  simp only [kernel_fourTap, fourTapAxis_eq hsw hx, fourTapAxis_eq hsh hy, weigh, saturate_eq_ite]
  rfl

/-- Settles O34: the horizontal pass keeps the constant, and so does the vertical one. -/
theorem constantImagesScaleToThemselves : Obligations.ConstantImagesScaleToThemselves := by
  unfold Obligations.ConstantImagesScaleToThemselves
  intro taps method c m hc ht sw sh dw dh x y
  simp only [kernel, axisSample_const hc ht]

/-- Settles O35: each pass reads inside its extent. -/
theorem kernelsReadOnlyTheImage : Obligations.KernelsReadOnlyTheImage := by
  unfold Obligations.KernelsReadOnlyTheImage
  intro taps method img img' sw sh dw dh m x y hsw hsh hx hy h
  exact kernel_congr hsw hsh hx hy fun c hc r hr => h c r hc hr

/-- Settles O36: the horizontal pass keeps the sample of row `y`, so the vertical one has it to keep. -/
theorem equalExtentsGiveTheImage : Obligations.EqualExtentsGiveTheImage := by
  unfold Obligations.EqualExtentsGiveTheImage
  intro taps method img w h m x y hx hy hunit himg
  have hrow : axisSample taps method (fun c => img c y) w w m x = img x y := axisSample_self hx hunit (himg x y hx hy)
  exact (axisSample_self hy hunit (hrow.trans_le (himg x y hx hy))).trans hrow

end Sys2Proof.Machine
end

section
/-! SUPPORT. The default tap table: its rows as rounded cubics, and the ranges of its taps (spec 43_resample_kernels.md
R222, R223). -/

namespace Sys2Proof.Machine

variable {p : Int} {ph : Nat}

/-! ### The cubics -/

/-- The numerator of T0 (R222). -/
def tapNum0 (p : Int) : Int := -p ^ 3 + 512 * p ^ 2 - 65536 * p

/-- The numerator of T2 (R222). -/
def tapNum2 (p : Int) : Int := -3 * p ^ 3 + 1024 * p ^ 2 + 65536 * p

/-- The numerator of T3 (R222). -/
def tapNum3 (p : Int) : Int := p ^ 3 - 256 * p ^ 2

/-- The numerator of T0 is `-p (256 - p)²`, least near `256 / 3`. -/
theorem tapNum0_bounds (hp : 0 ≤ p) (hp' : p < 256) : -2506752 ≤ tapNum0 p ∧ tapNum0 p ≤ 0 := by
  have hmax : 0 ≤ p * (256 - p) ^ 2 := by positivity
  have hmin : 0 ≤ (3 * p - 256) ^ 2 * (1024 - 3 * p) := mul_nonneg (sq_nonneg _) (by omega)
  unfold tapNum0
  constructor <;> linarith

/-- The numerator of T3 is `-p² (256 - p)`, least near `512 / 3`. -/
theorem tapNum3_bounds (hp : 0 ≤ p) (hp' : p < 256) : -2506752 ≤ tapNum3 p ∧ tapNum3 p ≤ 0 := by
  have hmax : 0 ≤ p ^ 2 * (256 - p) := mul_nonneg (sq_nonneg _) (by omega)
  have hmin : 0 ≤ (3 * p - 512) ^ 2 * (3 * p + 256) := by positivity
  unfold tapNum3
  constructor <;> linarith

/-- The numerator of T2 is `p (65536 + p (1024 - 3 p))`, and `(256 - p)² (3 p + 512)` below its value at 256. -/
theorem tapNum2_bounds (hp : 0 ≤ p) (hp' : p < 256) : 0 ≤ tapNum2 p ∧ tapNum2 p ≤ 33554432 := by
  have hfactor : 0 ≤ 1024 - 3 * p := by omega
  have hmin : 0 ≤ p * (65536 + p * (1024 - 3 * p)) := by positivity
  have hmax : 0 ≤ (256 - p) ^ 2 * (3 * p + 512) := by positivity
  unfold tapNum2
  constructor <;> linarith

/-- The numerators of T0 and T3 together are `-256 p (256 - p)`, least at 128. -/
theorem le_tapNum0_add_tapNum3 (p : Int) : -4194304 ≤ tapNum0 p + tapNum3 p := by
  unfold tapNum0 tapNum3
  linarith [sq_nonneg (p - 128)]

theorem tapNum_sum (p : Int) : tapNum0 p + tapNum2 p + tapNum3 p = p ^ 2 * (1280 - 3 * p) := by
  unfold tapNum0 tapNum2 tapNum3
  ring

/-- Away from the ends of the table the three numerators sum to at least 1/2 and to less than 1021 1/2 of 32768: three
roundings, each by 1/2 at most, leave a sum of taps in [0, 1022]. -/
theorem tapNum_sum_bounds (hp : 6 ≤ p) (hp' : p ≤ 254) :
    16384 ≤ tapNum0 p + tapNum2 p + tapNum3 p ∧ tapNum0 p + tapNum2 p + tapNum3 p < 33472512 := by
  rw [tapNum_sum]
  constructor <;> nlinarith [mul_nonneg (sub_nonneg.2 hp) (sub_nonneg.2 hp')]

/-! ### The rows -/

/-- `v` is `n / 32768` rounded half up (R222). -/
def RoundsTo (n v : Int) : Prop := v * 32768 ≤ n + 16384 ∧ n + 16384 < (v + 1) * 32768

theorem roundsTo_fdiv (n : Int) : RoundsTo n (Int.fdiv (n + 16384) 32768) := by
  rw [RoundsTo, Int.fdiv_eq_ediv_of_nonneg _ (by decide)]
  omega

/-- T0, T2 and T3 of a row are its rounded cubics (R222). -/
theorem defaultTaps_roundsTo (ph : Nat) : RoundsTo (tapNum0 ph) (defaultTaps ph).t0 ∧
    RoundsTo (tapNum2 ph) (defaultTaps ph).t2 ∧ RoundsTo (tapNum3 ph) (defaultTaps ph).t3 :=
  ⟨roundsTo_fdiv _, roundsTo_fdiv _, roundsTo_fdiv _⟩

theorem defaultTaps_sum (hph : ph < 256) :
    (defaultTaps ph).t0 + (defaultTaps ph).t1 + (defaultTaps ph).t2 + (defaultTaps ph).t3 = 1024 :=
  tapsValid_catmullRom.2 ph hph

/-- T1 is in [2, 1024]. Where the cubics are within the rounding of a bound, at phases 0 to 5 and 255, the rows are
evaluated. -/
theorem defaultTaps_t1_bounds (hph : ph < 256) : 2 ≤ (defaultTaps ph).t1 ∧ (defaultTaps ph).t1 ≤ 1024 := by
  obtain hfirst | rfl | ⟨hlo, hhi⟩ : ph < 6 ∨ ph = 255 ∨ 6 ≤ ph ∧ ph ≤ 254 := by omega
  · have hrows : ∀ q < 6, 2 ≤ (defaultTaps q).t1 ∧ (defaultTaps q).t1 ≤ 1024 := by decide
    exact hrows ph hfirst
  · decide
  · obtain ⟨h0, h2, h3⟩ := defaultTaps_roundsTo ph
    have hnum := tapNum_sum_bounds (p := ph) (by omega) (by omega)
    have hsum := defaultTaps_sum hph
    unfold RoundsTo at h0 h2 h3
    omega

/-- Settles O33: rounding keeps the bounds of the cubics, and T1 is what is left of 1024. -/
theorem defaultTapTable : Obligations.DefaultTapTable := by
  unfold Obligations.DefaultTapTable
  refine ⟨by decide, by decide, fun ph hph => ?_⟩
  obtain ⟨h0, h2, h3⟩ := defaultTaps_roundsTo ph
  have hp : (0 : Int) ≤ ph ∧ (ph : Int) < 256 := by omega
  have hn0 := tapNum0_bounds hp.1 hp.2
  have hn2 := tapNum2_bounds hp.1 hp.2
  have hn3 := tapNum3_bounds hp.1 hp.2
  have hn03 := le_tapNum0_add_tapNum3 ph
  have hsum := defaultTaps_sum hph
  have ht1 := defaultTaps_t1_bounds hph
  refine ⟨h0, h2, h3, hsum, ?_⟩
  unfold RoundsTo at h0 h2 h3
  simp only [State.reset, Config.Params.standard, tapRow]
  omega

end Sys2Proof.Machine
end

section
/-! SUPPORT. What the chroma dispatch guarantees of every SCALE_PLANE and RUN: a downgraded 4TAP is BILINEAR, channels stay
in their fields, and equal frame sizes copy every sample byte (spec 44_chroma_dispatch.md R244, R250, R254 to R256). -/

namespace Sys2Proof.Machine

open Sys2Proof.Claims

/-! ### A command depends on its method through the effective method only -/

section Dispatch

variable {s : State} {e e' : Method}

theorem State.effMethod_fourTap_of_low (h : s.srcDim.h.toNat < 4) : s.effMethod .fourTap = s.effMethod .bilinear := by
  simp [effMethod_eq, h]

theorem State.completeScale_congr (he : s.effMethod e = s.effMethod e') (isRun : Bool) (plan : Except ErrorCode Plan) :
    s.completeScale e isRun plan = s.completeScale e' isRun plan := by
  unfold State.completeScale
  rw [he]

theorem State.planFor_congr (he : s.effMethod e = s.effMethod e') : s.planFor e = s.planFor e' := by
  unfold State.planFor
  rw [he]

theorem State.runPlan_congr (he : s.effMethod e = s.effMethod e') : s.runPlan e = s.runPlan e' := by
  unfold State.runPlan
  rw [State.planFor_congr he]

theorem State.scalePlan_congr (he : s.effMethod e = s.effMethod e') : s.scalePlan e = s.scalePlan e' := by
  unfold State.scalePlan
  rw [State.planFor_congr he]

theorem run_congr (he : s.effMethod e = s.effMethod e') : run e s = run e' s := by
  unfold run
  rw [State.runPlan_congr he, State.completeScale_congr he]

theorem scalePlane_congr (he : s.effMethod e = s.effMethod e') (role : BitVec 2) (field : Field) :
    scalePlane e role field s = scalePlane e' role field s := by
  unfold scalePlane
  simp only [State.scalePlan_congr he, State.completeScale_congr he]

end Dispatch

/-- Settles O46: below 4 source rows both methods have one effective method, and nothing else of the method counts. -/
theorem downgradedFourTapIsBilinear : Obligations.DowngradedFourTapIsBilinear := by
  unfold Obligations.DowngradedFourTapIsBilinear
  intro s hlow
  have he := State.effMethod_fourTap_of_low hlow
  refine ⟨?_, fun role field => ?_⟩
  · rw [exec_runFourTap, exec_runBilinear, run_congr he]
  · rw [exec_scalePlaneFourTap, exec_scalePlaneBilinear, scalePlane_congr he]

/-- Settles O37: each pass saturates to the channel's range, and the channels of a sample share no bit. -/
theorem channelsStayInTheirFields : Obligations.ChannelsStayInTheirFields := by
  unfold Obligations.ChannelsStayInTheirFields
  intro fmt u c P method mem pf x y hu hc
  exact ⟨Nat.le_sub_one_of_lt (u.scaled_lt P c method mem pf x y), SampleUnit.value_compose hu hc,
    SampleUnit.compose_lt hu⟩

/-! ### A sample is its channels, and its bytes are the sample -/

variable {fmt : Format} {u : SampleUnit} {n v : Nat} {be : Bool} {m m' : Memory}

/-- A channel's bits are the sample's, from the channel's lowest bit on (R241). -/
theorem Channel.testBit_value (c : Channel) (hlo : c.lo ≤ n) :
    (c.value v).testBit (n - c.lo) = (decide (n - c.lo < c.bits) && v.testBit n) := by
  rw [Channel.value, Nat.testBit_mod_two_pow, Nat.testBit_div_two_pow, Nat.sub_add_cancel hlo]

/-- A sample all of whose bits belong to channels is put together again from its channels. -/
theorem foldl_or_value {cs : List Channel} (hv : v < 2 ^ n) (hcover : ∀ k < n, ∃ c ∈ cs, c.lo ≤ k ∧ k - c.lo < c.bits) :
    cs.foldl (fun acc c => acc ||| c.value v <<< c.lo) 0 = v := by
  refine Nat.eq_of_testBit_eq fun k => ?_
  rw [testBit_foldl_or, Nat.zero_testBit, Bool.false_or, Bool.eq_iff_iff, List.any_eq_true]
  constructor
  · rintro ⟨c, -, hbit⟩
    rw [Bool.and_eq_true, decide_eq_true_eq] at hbit
    obtain ⟨hlo, hbit⟩ := hbit
    rw [c.testBit_value hlo, Bool.and_eq_true] at hbit
    exact hbit.2
  · intro hbit
    have hk : k < n := Nat.lt_of_not_le fun hle => by
      rw [Nat.testBit_lt_two_pow (hv.trans_le (Nat.pow_le_pow_right Nat.two_pos hle))] at hbit
      cases hbit
    obtain ⟨c, hc, hlo, hlt⟩ := hcover k hk
    exact ⟨c, hc, by simp [c.testBit_value hlo, hlo, hlt, hbit]⟩

/-- Every bit of a sample belongs to a channel, in each of the 24 formats (R241). -/
theorem unitsOf_channels_cover (hu : u ∈ unitsOf fmt) :
    ∀ k < 8 * u.bytes, ∃ c ∈ u.channels, c.lo ≤ k ∧ k - c.lo < c.bits := by
  have units : ∀ fmt, ∀ u ∈ unitsOf fmt, ∀ k < 8 * u.bytes, ∃ c ∈ u.channels, c.lo ≤ k ∧ k - c.lo < c.bits :=
    fun fmt => by cases fmt <;> decide
  exact units fmt u hu

theorem SampleUnit.read_lt (u : SampleUnit) (be : Bool) (m : Memory) (a : Nat) : u.read be m a < 2 ^ (8 * u.bytes) := by
  unfold SampleUnit.read SampleUnit.bytes
  cases u.wide
  · exact (m.read8 a).isLt
  · have h0 := (m.read8 a).isLt
    have h1 := (m.read8 (a + 1)).isLt
    cases be <;> simp [Memory.read16] <;> omega

/-- A 16-bit sample determines both its bytes, in either byte order (R84). -/
theorem Memory.read8_of_read16_eq {a a' : Nat} (h : m.read16 be a = m'.read16 be a') :
    m.read8 a = m'.read8 a' ∧ m.read8 (a + 1) = m'.read8 (a' + 1) := by
  unfold Memory.read16 at h
  cases be <;> simp only [Bool.false_eq_true, if_false, if_true] at h <;> bv_omega

/-- A sample determines its bytes (R84, R241). -/
theorem SampleUnit.read8_of_read_eq {a a' b : Nat} (h : u.read be m a = u.read be m' a') (hb : b < u.bytes) :
    m.read8 (a + b) = m'.read8 (a' + b) := by
  unfold SampleUnit.read at h
  unfold SampleUnit.bytes at hb
  cases hw : u.wide <;> simp only [hw, Bool.false_eq_true, if_false, if_true] at h hb
  · obtain rfl : b = 0 := by omega
    exact BitVec.eq_of_toNat_eq h
  · obtain ⟨h0, h1⟩ := Memory.read8_of_read16_eq h
    obtain rfl | rfl : b = 0 ∨ b = 1 := by omega
    · exact h0
    · exact h1

/-! ### Equal extents copy every sample -/

variable {P : Config.Params} {method : Method} {pf : PlaneField} {x r : Nat}

/-- At equal extents a scaled channel is the source channel (R206, R224, R256). -/
theorem SampleUnit.scaled_self (u : SampleUnit) (c : Channel) (hunit : tapRow P.taps 0 = ⟨0, 1024, 0, 0⟩)
    (hw : pf.dst.w = pf.src.w) (hh : pf.dst.h = pf.src.h) (hx : x < u.width pf.src.w) (hr : r < pf.src.h) :
    u.scaled P c method m pf x r = c.value (u.read P.sample16BE m (u.addr pf.src x r)) := by
  rw [SampleUnit.scaled, hw, hh]
  exact equalExtentsGiveTheImage _ _ _ _ _ _ _ _ hx hr hunit fun _ _ _ _ => c.value_le_max _

/-- At equal extents a destination sample is the source sample at its position (R256). -/
theorem SampleUnit.compose_self (hu : u ∈ unitsOf fmt) (hunit : tapRow P.taps 0 = ⟨0, 1024, 0, 0⟩)
    (hw : pf.dst.w = pf.src.w) (hh : pf.dst.h = pf.src.h) (hx : x < u.width pf.src.w) (hr : r < pf.src.h) :
    u.compose P method m pf x r = u.read P.sample16BE m (u.addr pf.src x r) := by
  simp only [SampleUnit.compose, u.scaled_self _ hunit hw hh hx hr]
  exact foldl_or_value (u.read_lt _ _ _) (unitsOf_channels_cover hu)

/-- A sample's offset from its buffer's base does not depend on the base (R181, R182). -/
theorem addr_locate_base (u : SampleUnit) (g : PlaneGeom) (base : Nat) (field : Field) (il : Bool) (x r : Nat) :
    u.addr (locate g base field il) x r = base + u.addr (locate g 0 field il) x r := by
  rw [addr_locate, addr_locate]
  omega

/-- The two halves of a plane-field have equal extents when source and destination are one plane of the layout. -/
theorem State.planeField_extents (s : State) (field : Field) (g : PlaneGeom) :
    (s.planeField field g g).dst.w = (s.planeField field g g).src.w ∧
      (s.planeField field g g).dst.h = (s.planeField field g g).src.h := by
  simp only [State.planeField, locate_w, locate_h, and_self]

/-- Settles O47: both frames have one layout, so every sample written is the source sample at the same offset. -/
theorem runAtEqualSizeIsTheIdentity : Obligations.RunAtEqualSizeIsTheIdentity := by
  unfold Obligations.RunAtEqualSizeIsTheIdentity
  intro i method hi s fmt lsrc ldst hf hrows hb hhaz hdim htaps
  obtain ⟨t, ht, hdone, -, hread⟩ := runWritesTheFrame i method hi s fmt lsrc ldst hf hrows hb hhaz
  refine ⟨t, ht, hdone, fun k hk => ?_⟩
  have hlayout : ldst = lsrc := by rw [hf.ldst, hf.lsrc, hdim]
  obtain ⟨pf, hpf, hk⟩ := List.mem_flatMap.1 hk
  obtain ⟨field, -, n, g, gd, hg, hgd, rfl⟩ := State.mem_frameWork.1 hpf
  obtain rfl : gd = g := by simpa [hlayout, hg] using hgd.symm
  obtain ⟨u, hu, x, r, b, hx, hr, hbyte, haddr⟩ := mem_sampleAddrs.1 hk
  obtain ⟨hw, hh⟩ := s.planeField_extents field gd
  have hsample := (hread _ hpf u hu x r hx hr).trans
    (SampleUnit.compose_self hu htaps.1 hw hh (hw ▸ hx) (hh ▸ hr))
  have hbytes := SampleUnit.read8_of_read_eq hsample hbyte
  simp only [State.planeField] at hbytes haddr
  rw [addr_locate_base, Nat.add_assoc] at haddr
  rw [addr_locate_base, addr_locate_base (base := s.srcBase.toNat), Nat.add_assoc, Nat.add_assoc,
    ← Nat.add_left_cancel haddr] at hbytes
  exact hbytes

end Sys2Proof.Machine
end

section
/-! SUPPORT. The commands as wholes: CLEAR, NOP and the acceptance of a word, what a step runs, the frame of every
command and its completion (spec 10_state.md R67; 45_commands.md R270 to R276; 60_exceptions.md R320, R322, R324;
70_reset_and_hazards.md R353, R374). -/

namespace Sys2Proof.Machine

open Sys2Proof.Claims

variable {s t : State} {i : Instr} {w : Word} {p : Plan} {a : Nat}

/-! ### CLEAR, NOP and the acceptance of a word -/

/-- CLEAR leaves no cause for the interrupt (R276, R330). -/
theorem State.irq_cleared (s : State) : State.irq { s with status := s.status.cleared } = false := by
  simp [State.irq]

/-- Settles O7: CLEAR's next state, in which no cause for the interrupt is left. -/
theorem clearAcknowledges : Obligations.ClearAcknowledges := by
  unfold Obligations.ClearAcknowledges
  intro s
  exact ⟨_, exec_clear s, s.irq_cleared, rfl⟩

/-- Settles O20: NOP is a successful completion and nothing else. -/
theorem nopCompletes : Obligations.NopCompletes := by
  unfold Obligations.NopCompletes
  exact exec_nop

/-- A word the host issues is a write to CMD (R48, R132). -/
theorem hostStep_issue (w : Word) (s : State) : hostStep (.regWrite 4 0x008 w) s = cmdWrite w s := by
  have hcmd : (0x008, Reg.cmd) ∈ registerMap := by decide
  exact (after_write hcmd w s).trans (registerWrite_cmd w s)

theorem cmdWrite_clear (hb : s.status.busy = false) : cmdWrite clearWord s = exec .clear s := by
  simp [cmdWrite, hb]

theorem cmdWrite_accept (hb : s.status.busy = false) (hw : w ≠ clearWord) :
    cmdWrite w s = .next (s.acceptWord w) := by
  simp [cmdWrite, hb, hw]

/-- Settles O6, by the three things a write to CMD can do. -/
theorem cmdWriteIsAccepted : Obligations.CmdWriteIsAccepted := by
  unfold Obligations.CmdWriteIsAccepted
  intro s w
  rw [after_eq_hostStep, hostStep_issue]
  refine ⟨fun hb hw => ?accepted, ?clear, fun hb => ?dropped⟩
  case accepted => exact cmdWrite_accept hb hw
  case clear =>
    rintro hb rfl
    exact (cmdWrite_clear hb).trans (exec_clear s)
  case dropped => exact cmdWrite_busy hb w

/-! ### What a step runs -/

theorem step_of_unscheduled (h : s.schedule = []) : step s = blockTurn s := by
  simp [step, nextTurn, h]

theorem step_of_scheduled {e : HostEvent} {rest : List HostEvent} (h : s.schedule = e :: rest) :
    step s = hostStep e { s with schedule := rest } := by
  simp [step, nextTurn, h]

theorem step_of_blockTurn {rest : List HostEvent} (h : s.schedule = .blockTurn :: rest) :
    step s = blockTurn { s with schedule := rest } :=
  step_of_scheduled h

theorem blockTurn_of_decode (hcur : s.curCmd = some w) (hdec : decode w = .ok i) : blockTurn s = exec i s := by
  simp [blockTurn, hcur, hdec]

theorem blockTurn_idle (hcur : s.curCmd = none) : blockTurn s = .next s := by
  simp [blockTurn, hcur]

/-- Settles O53: the block's turn comes with an empty schedule or as its first event. -/
theorem stepRunsTheDecodedCommand : Obligations.StepRunsTheDecodedCommand := by
  unfold Obligations.StepRunsTheDecodedCommand
  refine ⟨fun s w i hnil hcur hdec => ?unscheduled, fun s rest w i hturn hcur hdec => ?scheduled,
    fun s rest hissue hb => ?clear, fun s rest hcur => ⟨fun hnil => ?idle, fun hturn => ?idleScheduled⟩⟩
  case unscheduled => rw [step_of_unscheduled hnil, blockTurn_of_decode hcur hdec]
  case scheduled =>
    rw [step_of_blockTurn hturn]
    exact blockTurn_of_decode (s := { s with schedule := rest }) hcur hdec
  case clear =>
    rw [step_of_scheduled hissue, hostStep_issue]
    exact cmdWrite_clear (s := { s with schedule := rest }) hb
  case idle => rw [step_of_unscheduled hnil, blockTurn_idle hcur]
  case idleScheduled =>
    rw [step_of_blockTurn hturn]
    exact blockTurn_idle (s := { s with schedule := rest }) hcur

/-! ### The frame of a command -/

/-- `t` is `s` but for STATUS, the command in flight, memory, and the model's marks of a hazard and of draws: every
other register of R37 and everything of the host is the same. -/
def SameRegisters (s t : State) : Prop := ∃ st cur m hz n,
  t = { s with status := st, curCmd := cur, mem := m, hazard := hz, draws := n }

theorem SameRegisters.refl (s : State) : SameRegisters s s := ⟨_, _, _, _, _, rfl⟩

theorem SameRegisters.trans {u : State} (h : SameRegisters s t) (h' : SameRegisters t u) : SameRegisters s u := by
  obtain ⟨_, _, _, _, _, rfl⟩ := h
  obtain ⟨_, _, _, _, _, rfl⟩ := h'
  exact ⟨_, _, _, _, _, rfl⟩

theorem sameRegisters_fail (code : ErrorCode) (s : State) : SameRegisters s (s.fail code) := ⟨_, _, _, _, _, rfl⟩

theorem sameRegisters_succeed (isRun : Bool) (s : State) : SameRegisters s (s.succeed isRun) := ⟨_, _, _, _, _, rfl⟩

theorem sameRegisters_completeScale (method : Method) (isRun : Bool) (plan : Except ErrorCode Plan) (s : State) :
    SameRegisters s (s.completeScale method isRun plan) := by
  rcases State.completeScale_cases method isRun plan s with ⟨_, -, he⟩ | ⟨_, -, he⟩ <;> rw [he] <;>
    exact ⟨_, _, _, _, _, rfl⟩

theorem sameRegisters_scalePlane (method : Method) (role : BitVec 2) (field : Field) (s : State) :
    SameRegisters s (scalePlane method role field s) := by
  rcases scalePlane_cases method role field s with he | ⟨_, -, -, he⟩ <;> rw [he]
  · exact sameRegisters_fail ..
  · exact sameRegisters_completeScale ..

/-- What a command has published in the result registers: nothing, a layout if it is LAYOUT, or an effective geometry if
it is LOCATE (R160, R185, R274). -/
inductive Published (i : Instr) (s : State) : State → Prop where
  | nothing : Published i s s
  | layout (hi : isLayout i = true) (l : Layout) : Published i s (s.publishLayout l)
  | location (hi : isLocate i = true) (e : EffGeom) : Published i s (s.publishLocation e)

/-- The registers a command writes: its own results and STATUS (R274, R353). -/
theorem exec_registers (i : Instr) (s : State) :
    ∃ u t, Published i s u ∧ SameRegisters u t ∧ exec i s = .next t := by
  cases i with
  | nop => exact ⟨s, _, .nothing, sameRegisters_succeed .., exec_nop s⟩
  | layout sel =>
    rw [exec_layout]
    rcases execLayout_cases sel s with ⟨_, -, he⟩ | ⟨l, -, he⟩
    · exact ⟨s, _, .nothing, sameRegisters_fail .., he⟩
    · exact ⟨_, _, .layout rfl l, sameRegisters_succeed .., he⟩
  | locate sel role field =>
    rw [exec_locate]
    rcases execLocate_cases sel role field s with ⟨_, -, he⟩ | ⟨e, -, he⟩
    · exact ⟨s, _, .nothing, sameRegisters_fail .., he⟩
    · exact ⟨_, _, .location rfl e, sameRegisters_succeed .., he⟩
  | scalePlaneNearest => exact ⟨s, _, .nothing, sameRegisters_scalePlane .., exec_scalePlaneNearest ..⟩
  | scalePlaneBilinear => exact ⟨s, _, .nothing, sameRegisters_scalePlane .., exec_scalePlaneBilinear ..⟩
  | scalePlaneFourTap => exact ⟨s, _, .nothing, sameRegisters_scalePlane .., exec_scalePlaneFourTap ..⟩
  | runNearest => exact ⟨s, _, .nothing, sameRegisters_completeScale .., exec_runNearest s⟩
  | runBilinear => exact ⟨s, _, .nothing, sameRegisters_completeScale .., exec_runBilinear s⟩
  | runFourTap => exact ⟨s, _, .nothing, sameRegisters_completeScale .., exec_runFourTap s⟩
  | clear => exact ⟨s, _, .nothing, ⟨_, _, _, _, _, rfl⟩, exec_clear s⟩

theorem exec_registers_of_next (h : exec i s = .next t) : ∃ u, Published i s u ∧ SameRegisters u t := by
  obtain ⟨u, v, hu, hv, he⟩ := exec_registers i s
  obtain rfl : v = t := by simpa using he.symm.trans h
  exact ⟨u, hu, hv⟩

/-- A byte that is neither a destination sample byte nor in scratch reads as before (R94). -/
theorem State.applyPlan_read8_other (hd : a ∉ p.destAddrs) (hk : s.scrRegion.covers a = false) :
    (s.applyPlan p).mem.read8 a = s.mem.read8 a :=
  Memory.read8_congr (State.applyPlan_other hd hk)

/-- A command without a plan leaves memory alone (R274, R321). -/
theorem exec_mem_of_planOf_none (h : exec i s = .next t) (hp : s.planOf i = none) : t.mem = s.mem := by
  have hc := exec_carries_of_next h
  rw [hp] at hc
  obtain ⟨-, hm, -⟩ := hc
  exact hm

theorem exec_mem_of_planOf_some (h : exec i s = .next t) (hp : s.planOf i = some p) : t.mem = (s.applyPlan p).mem := by
  have hc := exec_carries_of_next h
  rw [hp] at hc
  obtain ⟨-, hm, -⟩ := hc
  exact hm

/-! ### The completion of a command -/

/-- A command that completes ends its flight, and leaves WIGN and LAST_OP as they were (R271, R320). -/
theorem Completes.ends {isRun : Bool} {o : Host.Outcome State Fault Refusal} (h : Completes isRun s o) :
    ∃ t, o = .next t ∧ (t.status.busy = false ∧ t.curCmd = none ∧ (t.status.done = true ∨ t.status.err = true)) ∧
      t.status.wign = s.status.wign ∧ t.status.lastOp = s.status.lastOp := by
  obtain ⟨u, hu, hcases⟩ := h
  have hkept : u.status.wign = s.status.wign ∧ u.status.lastOp = s.status.lastOp := by
    rcases hu.status with he | ⟨m, he⟩ <;> rw [he] <;> exact ⟨rfl, rfl⟩
  rcases hcases with ⟨code, -, rfl⟩ | rfl
  · exact ⟨_, rfl, ⟨rfl, rfl, .inr rfl⟩, hkept⟩
  · exact ⟨_, rfl, ⟨rfl, rfl, .inl rfl⟩, hkept⟩

/-- Settles O52: every command but CLEAR completes, in an error or a success, and CLEAR answers at its acceptance. -/
theorem everyCommandCompletes : Obligations.EveryCommandCompletes := by
  unfold Obligations.EveryCommandCompletes
  intro i s
  by_cases hi : i = .clear
  · subst hi
    exact ⟨_, exec_clear s, fun hne => absurd rfl hne⟩
  · obtain ⟨t, ht, hends, -⟩ := (exec_completes hi s).ends
    exact ⟨t, ht, fun _ => hends⟩

/-- Settles O51: the registers by what the command publishes, memory by its plan, WIGN and LAST_OP by its completion. -/
theorem commandsWriteOnlyTheirResults : Obligations.CommandsWriteOnlyTheirResults := by
  unfold Obligations.CommandsWriteOnlyTheirResults
  intro i s t h
  obtain ⟨u, hu, hut⟩ := exec_registers_of_next h
  refine ⟨?config, ?layout, ?location, fun hi a => ?notScale, fun p hp a hd hk => ?planned, fun hp a => ?noPlan, ?flags⟩
  case config =>
    obtain ⟨_, _, _, _, _, rfl⟩ := hut
    cases hu <;> exact ⟨rfl, rfl, rfl, rfl, rfl, rfl, rfl, rfl, rfl, rfl, rfl, rfl, rfl⟩
  case layout =>
    intro hno
    obtain ⟨_, _, _, _, _, rfl⟩ := hut
    cases hu with
    | nothing | location => exact ⟨rfl, rfl, rfl, rfl, rfl⟩
    | layout hi => rw [hi] at hno; cases hno
  case location =>
    intro hno
    obtain ⟨_, _, _, _, _, rfl⟩ := hut
    cases hu with
    | nothing | layout => rfl
    | location hi => rw [hi] at hno; cases hno
  case notScale => rw [exec_mem_of_planOf_none h (State.planOf_of_not_scale hi)]
  case planned => rw [exec_mem_of_planOf_some h hp, State.applyPlan_read8_other hd hk]
  case noPlan => rw [exec_mem_of_planOf_none h hp]
  case flags =>
    by_cases hi : i = .clear
    · exact .inr hi
    · obtain ⟨v, hv, -, hkept⟩ := (exec_completes hi s).ends
      obtain rfl : v = t := by simpa using hv.symm.trans h
      exact .inl hkept

/-- No command touches the host's schedule (R274). -/
theorem exec_schedule (h : exec i s = .next t) : t.schedule = s.schedule := by
  obtain ⟨u, hu, _, _, _, _, _, rfl⟩ := exec_registers_of_next h
  cases hu <;> rfl

/-- The word in flight, legal or not, completes at the block's turn (R271, R314). -/
theorem blockTurn_completes (hcur : s.curCmd = some w) (hw : w ≠ clearWord) :
    ∃ t, blockTurn s = .next t ∧ t.status.busy = false ∧ t.curCmd = none ∧ t.status.lastOp = s.status.lastOp ∧
      t.schedule = s.schedule := by
  rcases blockTurn_cases s with ⟨hidle, -⟩ | ⟨_, _, -, -, he⟩ | ⟨v, i, hv, hdec, he⟩
  · rw [hcur] at hidle
    cases hidle
  · exact ⟨_, he, rfl, rfl, rfl, rfl⟩
  · obtain rfl : v = w := by simpa [hcur] using hv.symm
    have hi : i ≠ .clear := by
      rintro rfl
      exact hw (decode_clear hdec)
    obtain ⟨t, ht, ⟨hb, hnone, -⟩, -, hlast⟩ := (exec_completes hi s).ends
    exact ⟨t, he.trans ht, hb, hnone, hlast, exec_schedule ht⟩

/-- Settles O54: CLEAR acts at its write and leaves the block idle; any other word is in flight at the block's turn. -/
theorem issuedCommandsComplete : Obligations.IssuedCommandsComplete := by
  unfold Obligations.IssuedCommandsComplete
  intro s w rest hb hcur hsched
  rw [step_of_scheduled hsched, hostStep_issue]
  by_cases hw : w = clearWord
  · subst hw
    exact ⟨_, _, (cmdWrite_clear (s := { s with schedule := .blockTurn :: rest }) hb).trans (exec_clear _),
      (step_of_blockTurn rfl).trans (blockTurn_idle hcur), hb, hcur, rfl, rfl⟩
  · obtain ⟨t, ht, hdone⟩ := blockTurn_completes (s := { s.acceptWord w with schedule := rest }) rfl hw
    exact ⟨_, t, cmdWrite_accept (s := { s with schedule := .blockTurn :: rest }) hb hw,
      (step_of_blockTurn rfl).trans ht, hdone⟩

end Sys2Proof.Machine
end

section
/-! SUPPORT. SCALE_PLANE and RUN past their checks: the whole state they leave, and a RUN as the sequence of its planes
(spec 20_memory.md R93, R94; 45_commands.md R271, R277 to R294). -/

namespace Sys2Proof.Machine

open Sys2Proof.Claims

variable {s u : State} {fmt : Format} {lsrc ldst : Layout} {p : Plan} {method : Method} {field : Field} {a : Nat}

/-! ### The state a plan leaves -/

/-- What a SCALE_PLANE or RUN leaves when its checks pass: the plan's memory, one draw, and a success that records the
effective method (R46, R271, R279). -/
def Plan.result (p : Plan) (seq : BitVec 2) (method : Method) (s : State) : State :=
  settled (doneStatus seq (withMethod (s.effMethod method) s.status))
    { s with mem := (s.applyPlan p).mem, draws := s.draws + 1 }

theorem run_of_plan (h : s.runPlan method = .ok p) : run method s = p.result 3#2 method s := by
  rw [run, h]
  rfl

theorem scalePlane_of_plan {code : BitVec 2} (h : s.scalePlanOf method code field = some p) :
    scalePlane method code field s = p.result 0#2 method s := by
  obtain ⟨role, hrole, hfield, hplan⟩ := State.scalePlanOf_some.1 h
  rw [scalePlane, hrole]
  simp only [hfield, if_true, hplan]
  rfl

/-- A RUN with a plan leaves what the plan leaves, with SEQ Done (R290 to R293). -/
theorem exec_run_of_planOf {i : Instr} (hi : (i, method) ∈ runForms) (h : s.planOf i = some p) :
    exec i s = .next (p.result 3#2 method s) := by
  rw [State.planOf_runForms hi, toOption_eq_some] at h
  rw [exec_runForms method s hi, run_of_plan h]

/-- A SCALE_PLANE with a plan leaves what the plan leaves, with SEQ Idle (R280 to R282). -/
theorem exec_scalePlane_of_planOf {i : Instr} {code : BitVec 2} (hi : (i, method) ∈ planeForms code field)
    (h : s.planOf i = some p) : exec i s = .next (p.result 0#2 method s) := by
  obtain ⟨he, -⟩ := exec_planeForms method code field s hi
  rw [State.planOf_planeForms hi] at h
  rw [he, scalePlane_of_plan h]

/-- Settles O38: the checks of a RUN give it the plan of its frame. -/
theorem runCompletes : Obligations.RunCompletes := by
  unfold Obligations.RunCompletes
  intro i m hi s fmt lsrc ldst hf hrows hb
  exact ⟨_, exec_run_of_planOf hi (State.planOf_run hi hf hrows hb), rfl,
    fun a hd hk => State.applyPlan_read8_other hd hk⟩

/-- Settles O39: the checks of a SCALE_PLANE give it the plan of its plane-field. -/
theorem scalePlaneCompletes : Obligations.ScalePlaneCompletes := by
  unfold Obligations.ScalePlaneCompletes
  intro role field i m hi s fmt lsrc ldst gs gd hf hfield hgs hrs hgd hrd hrows hb
  exact ⟨_, exec_scalePlane_of_planOf hi (State.planOf_scalePlane hi hf hfield hgs hrs hgd hrd hrows hb), rfl,
    fun a hd hk => State.applyPlan_read8_other hd hk⟩

/-! ### The checks and the planes of a frame between two commands -/

theorem SameRegisters.frames (hu : SameRegisters s u) (h : Frames s fmt lsrc ldst) : Frames u fmt lsrc ldst := by
  obtain ⟨_, _, _, _, _, rfl⟩ := hu
  exact ⟨h.format, h.srcDim, h.dstDim, h.lsrc, h.ldst⟩

theorem SameRegisters.buffers (hu : SameRegisters s u) (h : Buffers s lsrc ldst) : Buffers u lsrc ldst := by
  obtain ⟨_, _, _, _, _, rfl⟩ := hu
  exact ⟨h.sizes, h.ends, h.scratch, h.apart⟩

theorem SameRegisters.scrRegion (hu : SameRegisters s u) : u.scrRegion = s.scrRegion := by
  obtain ⟨_, _, _, _, _, rfl⟩ := hu
  rfl

theorem SameRegisters.params (hu : SameRegisters s u) : u.params = s.params := by
  obtain ⟨_, _, _, _, _, rfl⟩ := hu
  rfl

theorem Plan.sameRegisters_result (p : Plan) (seq : BitVec 2) (method : Method) (s : State) :
    SameRegisters s (p.result seq method s) := ⟨_, _, _, _, _, rfl⟩

/-- With no hazard and outside scratch, a plan leaves its cells over what memory held (R94). -/
theorem Plan.result_mem (hhaz : s.hazard = false) (ha : s.scrRegion.covers a = false) (seq : BitVec 2) :
    (p.result seq method s).mem.get? a = (s.mem.writeAll (p.cells s.params s.mem)).get? a := by
  have hdest := State.applyPlan_dest (p := p) ha
  rwa [Plan.destCells, hhaz] at hdest

/-- Writes give memories that agree at an address memories that agree there. -/
theorem Memory.get?_writeAll_congr {m m' : Memory} (h : m.get? a = m'.get? a) (cells : List Host.Cell) :
    (m.writeAll cells).get? a = (m'.writeAll cells).get? a := by
  by_cases ha : a ∈ cells.map Prod.fst
  · obtain ⟨v, -, hv⟩ := Memory.get?_writeAll_written ha
    rw [hv, hv]
  · rw [Memory.get?_writeAll_other ha, Memory.get?_writeAll_other ha, h]

/-- No source byte is a destination or a scratch byte (R319). -/
theorem source_not_written (h : Buffers s lsrc ldst) (ha : s.srcRegion.covers a = true) :
    s.dstRegion.covers a = false ∧ s.scrRegion.covers a = false := by
  obtain ⟨hlo, hhi⟩ := (Region.covers_iff _ _).1 ha
  obtain ⟨hdst, hscr, -⟩ := h.apart
  rw [Bool.eq_false_iff, Bool.eq_false_iff, ne_eq, ne_eq, Region.covers_iff, Region.covers_iff]
  simp only [State.srcRegion, State.dstRegion, State.scrRegion, Apart] at *
  omega

theorem planeCommand_mem_planeForms (method : Method) (role : Role) (field : Field) :
    (planeCommand method role field, method) ∈ planeForms role.code field := by
  cases method <;> simp [planeForms, planeCommand]

theorem runCommand_mem_runForms (method : Method) : (runCommand method, method) ∈ runForms := by
  cases method <;> simp [runForms, runCommand]

/-! ### A RUN plane by plane -/

/-- A field with a source and a destination plane: what one SCALE_PLANE works on (R277). -/
abbrev Addressed : Type := Field × PlaneGeom × PlaneGeom

/-- A SCALE_PLANE can address it: a field the frame has, and two planes of one role that pass step 4b (R280, R284). -/
structure Addressed.Valid (s : State) (lsrc ldst : Layout) (x : Addressed) : Prop where
  field : x.1 = .f1 → s.format.interlaced = true
  src : x.2.1 ∈ lsrc
  dst : x.2.2 ∈ ldst
  role : x.2.2.role = x.2.1.role
  rows : SourceRows [s.planeField x.1 x.2.1 x.2.2]

/-- The SCALE_PLANE that addresses it. -/
def Addressed.command (method : Method) (x : Addressed) : Instr := planeCommand method x.2.1.role x.1

/-- The plan of that SCALE_PLANE (R278, R280). -/
def Addressed.plan (s : State) (fmt : Format) (method : Method) (x : Addressed) : Plan :=
  ⟨s.effMethod method, unitsOf fmt, [s.planeField x.1 x.2.1 x.2.2]⟩

/-- The writes of that SCALE_PLANE to the destination, by the memory of `s` (R279). -/
def Addressed.cells (s : State) (fmt : Format) (method : Method) (x : Addressed) : List Host.Cell :=
  (x.plan s fmt method).cells s.params s.mem

variable {x : Addressed} {l : List Addressed} {cells : List Host.Cell}

theorem Addressed.Valid.planned (hx : x.Valid s lsrc ldst) (hf : Frames s fmt lsrc ldst) (hb : Buffers s lsrc ldst) :
    Planned s (x.plan s fmt method) fmt lsrc ldst :=
  ⟨hf, hx.rows, hb, rfl, State.planeField_worksOn x.1 hx.src hx.dst⟩

/-- The SCALE_PLANE has the same plan after other commands of the frame (R278). -/
theorem Addressed.Valid.planOf (hx : x.Valid s lsrc ldst) (hu : SameRegisters s u) (hf : Frames s fmt lsrc ldst)
    (hb : Buffers s lsrc ldst) : u.planOf (x.command method) = some (x.plan s fmt method) := by
  have hfu := hu.frames hf
  have hbu := hu.buffers hb
  obtain ⟨_, _, _, _, _, rfl⟩ := hu
  exact State.planOf_scalePlane (planeCommand_mem_planeForms ..) hfu hx.field hx.src rfl hx.dst hx.role hx.rows hbu

/-- `u` is where commands of a frame have led from `s`: no register but STATUS differs, no hazard is marked, and outside
scratch memory holds `cells`, all of them in the destination, over what it held. -/
structure Holds (s : State) (cells : List Host.Cell) (u : State) : Prop where
  registers : SameRegisters s u
  hazard : u.hazard = false
  dest : ∀ c ∈ cells, s.dstRegion.covers c.1 = true
  mem : ∀ a, s.scrRegion.covers a = false → u.mem.get? a = (s.mem.writeAll cells).get? a

theorem Holds.start (hhaz : s.hazard = false) : Holds s [] s :=
  ⟨.refl s, hhaz, by simp, fun _ _ => rfl⟩

/-- The source is as it was (R93, R319). -/
theorem Holds.source (h : Holds s cells u) (hb : Buffers s lsrc ldst) (ha : s.srcRegion.covers a = true) :
    u.mem.read8 a = s.mem.read8 a := by
  obtain ⟨hdst, hscr⟩ := source_not_written hb ha
  refine Memory.read8_congr ((h.mem a hscr).trans (Memory.get?_writeAll_other ?_ s.mem))
  intro hmem
  obtain ⟨c, hc, rfl⟩ := List.mem_map.1 hmem
  rw [h.dest c hc] at hdst
  cases hdst

/-- A plan carried out after other commands of the frame adds the writes it makes from the memory of `s`: the source is
as it was (R93, R279). -/
theorem Holds.then_plan (h : Holds s cells u) (hp : Planned s p fmt lsrc ldst) (seq : BitVec 2) :
    Holds s (cells ++ p.cells s.params s.mem) (p.result seq method u) where
  registers := h.registers.trans (p.sameRegisters_result ..)
  hazard := rfl
  dest c hc := by
    rcases List.mem_append.1 hc with hc | hc
    · exact h.dest c hc
    · refine hp.dest_covered ?_
      rw [← p.cells_addrs s.params s.mem]
      exact List.mem_map_of_mem hc
  mem a ha := by
    have hcells : p.cells s.params u.mem = p.cells s.params s.mem :=
      hp.cells_congr s.params fun b hb => h.source hp.buffers hb
    rw [Plan.result_mem h.hazard (h.registers.scrRegion ▸ ha), h.registers.params, hcells, Memory.writeAll_append]
    exact Memory.get?_writeAll_congr (h.mem a ha) _

/-- One more SCALE_PLANE adds its writes (R294). -/
theorem Holds.then_scalePlane (h : Holds s cells u) (hf : Frames s fmt lsrc ldst) (hb : Buffers s lsrc ldst)
    (hx : x.Valid s lsrc ldst) (method : Method) :
    ∃ v, exec (x.command method) u = .next v ∧ v.status.done = true ∧ Holds s (cells ++ x.cells s fmt method) v :=
  ⟨_, exec_scalePlane_of_planOf (planeCommand_mem_planeForms ..) (hx.planOf h.registers hf hb), rfl,
    h.then_plan (hx.planned hf hb) 0#2⟩

/-- SCALE_PLANE commands one after another add the writes of each, and end in a success (R294). -/
theorem Holds.then_scalePlanes (h : Holds s cells u) (hf : Frames s fmt lsrc ldst) (hb : Buffers s lsrc ldst)
    (hl : ∀ x ∈ l, x.Valid s lsrc ldst) (method : Method) (hdone : u.status.done = true ∨ l ≠ []) :
    ∃ q, execAll (l.map (Addressed.command method)) u = .next q ∧ q.status.done = true ∧
      Holds s (cells ++ l.flatMap (Addressed.cells s fmt method)) q := by
  induction l generalizing u cells with
  | nil => exact ⟨u, rfl, hdone.resolve_right (not_not.2 rfl), by simpa using h⟩
  | cons x xs ih =>
    rw [List.forall_mem_cons] at hl
    obtain ⟨v, hv, hvdone, hvh⟩ := h.then_scalePlane hf hb hl.1 method
    obtain ⟨q, hq, hqdone, hqh⟩ := ih hvh hl.2 (.inl hvdone)
    refine ⟨q, ?_, hqdone, ?_⟩
    · rw [List.map_cons, Claims.execAll, hv]
      exact hq
    · rwa [List.flatMap_cons, ← List.append_assoc]

/-- The plane-fields of a frame: its planes in memory order, field 0 first (R277, R290). -/
def State.addressed (s : State) (lsrc ldst : Layout) : List Addressed :=
  s.fields.flatMap fun f => (lsrc.zip ldst).map fun g => (f, g)

theorem State.mem_addressed : x ∈ s.addressed lsrc ldst ↔ x.1 ∈ s.fields ∧ x.2 ∈ lsrc.zip ldst := by
  obtain ⟨f, g⟩ := x
  simp [State.addressed]

/-- RUN's work list is that of the plane-fields (R277). -/
theorem State.frameWork_eq (s : State) (lsrc ldst : Layout) :
    s.frameWork lsrc ldst = (s.addressed lsrc ldst).map fun x => s.planeField x.1 x.2.1 x.2.2 := by
  simp [State.frameWork, State.addressed, List.map_flatMap, List.zip, List.map_zipWith]

theorem State.addressed_cells (s : State) (fmt : Format) (lsrc ldst : Layout) (method : Method) :
    (s.addressed lsrc ldst).flatMap (Addressed.cells s fmt method) =
      Plan.cells ⟨s.effMethod method, unitsOf fmt, s.frameWork lsrc ldst⟩ s.params s.mem := by
  rw [State.frameWork_eq, Plan.cells, List.flatMap_map]
  exact List.flatMap_congr fun x _ => List.flatMap_singleton ..

/-- The SCALE_PLANE commands over the fields and planes of a frame address its plane-fields (R294). -/
theorem State.addressed_commands (s : State) (method : Method) (hlen : lsrc.length = ldst.length) :
    (s.fields.flatMap fun f => lsrc.map fun g => planeCommand method g.role f) =
      (s.addressed lsrc ldst).map (Addressed.command method) := by
  rw [State.addressed, List.map_flatMap]
  refine List.flatMap_congr fun f _ => ?_
  calc lsrc.map (fun g => planeCommand method g.role f)
      = ((lsrc.zip ldst).map Prod.fst).map (fun g => planeCommand method g.role f) := by
        rw [List.map_fst_zip hlen.le]
    _ = _ := by rw [List.map_map, List.map_map]; rfl

theorem layout_ne_nil (fmt : Format) (w h : Nat) : layout fmt w h ≠ [] := by
  unfold layout planeRows planarRows
  cases fmt.layoutClass <;> exact nofun

/-- Planes at one place of two layouts of a format carry one role (R148). -/
theorem layout_zip_role {w h w' h' : Nat} {g : PlaneGeom × PlaneGeom}
    (hg : g ∈ (layout fmt w h).zip (layout fmt w' h')) : g.2.role = g.1.role := by
  obtain ⟨n, hn⟩ := List.mem_iff_getElem?.1 hg
  obtain ⟨hs, hd⟩ := List.getElem?_zip_eq_some.1 hn
  have hroles := congrArg (·[n]?) ((layout_roles fmt w h).trans (layout_roles fmt w' h').symm)
  simpa [hs, hd] using hroles.symm

/-- When step 4b passes for the frame, SCALE_PLANE can address each of its plane-fields (R148, R277, R284). -/
theorem addressed_valid (hf : Frames s fmt lsrc ldst) (hrows : SourceRows (s.frameWork lsrc ldst))
    (hx : x ∈ s.addressed lsrc ldst) : x.Valid s lsrc ldst := by
  have hpf : s.planeField x.1 x.2.1 x.2.2 ∈ s.frameWork lsrc ldst := by
    rw [State.frameWork_eq]
    exact List.mem_map_of_mem hx
  obtain ⟨hfield, hzip⟩ := State.mem_addressed.1 hx
  obtain ⟨hs, hd⟩ := List.of_mem_zip hzip
  refine ⟨fun h1 => ?field, hs, hd, ?role, fun pf hmem => ?rows⟩
  case field =>
    rcases State.mem_fields.1 hfield with h0 | ⟨-, hil⟩
    · rw [h1] at h0
      cases h0
    · exact hil
  case role =>
    rw [hf.lsrc, hf.ldst] at hzip
    exact layout_zip_role hzip
  case rows =>
    obtain rfl := List.mem_singleton.1 hmem
    exact hrows _ hpf

theorem frames_length (hf : Frames s fmt lsrc ldst) : lsrc.length = ldst.length := by
  rw [hf.lsrc, hf.ldst]
  exact length_layout ..

/-- A frame has at least plane 0 in field 0 (R142, R277). -/
theorem addressed_ne_nil (hf : Frames s fmt lsrc ldst) : s.addressed lsrc ldst ≠ [] := by
  have hlen := frames_length hf
  have hfield : Field.f0 ∈ s.fields := State.mem_fields.2 (.inl rfl)
  obtain ⟨gs, hgs⟩ := List.exists_mem_of_ne_nil lsrc (hf.lsrc ▸ layout_ne_nil _ _ _)
  obtain ⟨n, hn, -⟩ := List.mem_iff_getElem.1 hgs
  have hzip : n < (lsrc.zip ldst).length := by
    rw [List.length_zip]
    omega
  exact List.ne_nil_of_mem (State.mem_addressed.2 ⟨hfield, List.getElem_mem hzip⟩ : (Field.f0, _) ∈ _)

/-- Settles O49: both ways make the writes of the same plane-fields, all from the source as it was. -/
theorem runEqualsItsPlanes : Obligations.RunEqualsItsPlanes := by
  unfold Obligations.RunEqualsItsPlanes
  intro m s fmt lsrc ldst hf hrows hb hhaz
  have hrun := exec_run_of_planOf (runCommand_mem_runForms m) (State.planOf_run (runCommand_mem_runForms m) hf hrows hb)
  obtain ⟨q, hq, hdone, hholds⟩ := (Holds.start hhaz).then_scalePlanes hf hb (fun x hx => addressed_valid hf hrows hx) m
    (.inr (addressed_ne_nil hf))
  rw [State.addressed_commands s m (frames_length hf)]
  refine ⟨_, q, hrun, rfl, hq, hdone, fun a ha => Memory.read8_congr ?_⟩
  rw [hholds.mem a ha, List.nil_append, State.addressed_cells, Plan.result_mem hhaz ha]

end Sys2Proof.Machine
end

section
/-! SUPPORT. How a command ends in an error: the checks of a SCALE_PLANE or RUN in their order, the whole state an error
completion leaves, and the illegal word in flight (spec 60_exceptions.md R310 to R321; 20_memory.md R91;
45_commands.md R284; 30_encoding.md R127). -/

namespace Sys2Proof.Machine

open Sys2Proof.Claims

variable {s : State} {fmt : Format} {lsrc ldst : Layout} {work : List PlaneField} {method : Method} {i : Instr}
  {code : BitVec 2} {role : Role} {field : Field} {err : ErrorCode} {fails : BitVec 4 → Prop}

/-! ### What an error completion leaves -/

/-- An error completion changes STATUS and ends the flight (R320, R321). -/
theorem State.fail_eq_settled (err : ErrorCode) (s : State) : s.fail err = settled (errStatus err.bits s.status) s :=
  rfl

/-- A SCALE_PLANE or RUN past its decode check records EFFM before its error (R46, R320). -/
theorem State.completeScale_error (method : Method) (isRun : Bool) (err : ErrorCode) (s : State) :
    s.completeScale method isRun (.error err) =
      settled (errStatus err.bits (withMethod (s.effMethod method) s.status)) s := rfl

/-! ### Steps 2 and 3 of R316: the format and the dimensions -/

theorem State.bothLayouts_unsupportedFormat (hcode : 24 ≤ s.format.fmt.toNat) :
    s.bothLayouts = .error .unsupportedFormat := by
  simp [State.bothLayouts, (Format.ofCode_eq_none_iff _).2 hcode]

/-- A frame without pixels, source or destination, is reported of a format of the catalog (R315). -/
theorem State.bothLayouts_invalidDimension (hcode : s.format.fmt.toNat ≤ 23)
    (hzero : s.srcDim.w = 0#15 ∨ s.srcDim.h = 0#15 ∨ s.dstDim.w = 0#15 ∨ s.dstDim.h = 0#15) :
    s.bothLayouts = .error .invalidDimension := by
  obtain ⟨fmt, hf⟩ := Option.ne_none_iff_exists'.1 (mt (Format.ofCode_eq_none_iff s.format.fmt).1 (by omega))
  have hrange : ¬(s.srcDim.inRange && s.dstDim.inRange) = true := by
    rw [Bool.and_eq_true, Dim.inRange_iff, Dim.inRange_iff]
    tauto
  simp [State.bothLayouts, hf, hrange]

/-! ### Steps 4b to 8 of R316: the checks of `validate` -/

theorem any_lacksSource_iff : work.any PlaneField.lacksSource = true ↔ ¬SourceRows work := by
  simp only [SourceRows, ← PlaneField.lacksSource_eq_false, List.any_eq_true, not_forall, Bool.not_eq_false, exists_prop]

theorem sizes_misfit_iff : s.srcSize.toNat < lsrc.total ∨ s.dstSize.toNat ≠ ldst.total ↔ ¬SizesFit s lsrc ldst := by
  rw [SizesFit, not_and_or, Nat.not_le]

theorem overflows_iff :
    (s.srcRegion.overflows || s.dstRegion.overflows || s.scrRegion.overflows) = true ↔ ¬RegionsEnd s := by
  rw [← Bool.not_eq_false, Bool.or_eq_false_iff, Bool.or_eq_false_iff, Region.overflows_eq_false,
    Region.overflows_eq_false, Region.overflows_eq_false, and_assoc]
  rfl

theorem scratch_short_iff : s.scrSize.toNat < s.scratchNeed ldst ↔ ¬ScratchFits s ldst := by
  rw [← State.scratchNeed_le_iff, Nat.not_le]

theorem intersects_iff :
    (s.srcRegion.intersects s.dstRegion || s.srcRegion.intersects s.scrRegion || s.dstRegion.intersects s.scrRegion) =
      true ↔ ¬RegionsApart s := by
  rw [← Bool.not_eq_false, Bool.or_eq_false_iff, Bool.or_eq_false_iff, Region.intersects_eq_false,
    Region.intersects_eq_false, Region.intersects_eq_false, and_assoc]
  rfl

/-- Steps 4b to 8 of R316 in their order: a step that fails after the earlier ones passed is reported by its code. -/
def ReportsInOrder (s : State) (lsrc ldst : Layout) (work : List PlaneField) (fails : BitVec 4 → Prop) : Prop :=
  (¬SourceRows work → fails 6#4) ∧
  (SourceRows work →
    (¬SizesFit s lsrc ldst → fails 4#4) ∧
    (SizesFit s lsrc ldst →
      (¬RegionsEnd s → fails 10#4) ∧
      (RegionsEnd s →
        (¬ScratchFits s ldst → fails 7#4) ∧
        (ScratchFits s ldst → ¬RegionsApart s → fails 9#4))))

/-- `validate` answers the first of its steps that fails (R279, R316). -/
theorem State.validate_reportsInOrder (h : ∀ err, s.validate lsrc ldst work = some err → fails err.bits) :
    ReportsInOrder s lsrc ldst work fails := by
  classical
  unfold State.validate at h
  simp only [any_lacksSource_iff, sizes_misfit_iff, overflows_iff, scratch_short_iff, intersects_iff] at h
  refine ⟨fun hrows => h .invalidDimension ?_, fun hrows => ⟨fun hsizes => h .geometryMismatch ?_, fun hsizes =>
    ⟨fun hends => h .addressOverflow ?_, fun hends => ⟨fun hscratch => h .scratchTooSmall ?_, fun hscratch hapart =>
      h .bufferOverlap ?_⟩⟩⟩⟩
  · exact if_pos hrows
  · simp [hrows, hsizes]
  · simp [hrows, hsizes, hends]
  · simp [hrows, hsizes, hends, hscratch]
  · simp [hrows, hsizes, hends, hscratch, hapart]

/-! ### The checks of a RUN -/

theorem exec_run_of_error (hi : (i, method) ∈ runForms) (h : s.runPlan method = .error err) :
    exec i s = .next (settled (errStatus err.bits (withMethod (s.effMethod method) s.status)) s) := by
  rw [exec_runForms method s hi, run, h, State.completeScale_error]

theorem State.runPlan_of_bothLayouts_error (h : s.bothLayouts = .error err) : s.runPlan method = .error err := by
  simp [State.runPlan, h]

theorem State.runPlan_of_validate (hf : Frames s fmt lsrc ldst)
    (h : s.validate lsrc ldst (s.frameWork lsrc ldst) = some err) : s.runPlan method = .error err := by
  simp [State.runPlan, State.bothLayouts_ok_iff.2 hf, State.planFor, h]

/-- Settles O42: the layouts are looked up first, then the steps of `validate` on the whole frame. -/
theorem runReportsTheFirstFailingCheck : Obligations.RunReportsTheFirstFailingCheck := by
  unfold Obligations.RunReportsTheFirstFailingCheck
  intro i m hi s fails
  refine ⟨fun hcode => ?format, fun hcode hzero => ?dimensions, fun fmt lsrc ldst hf => ?checks⟩
  case format =>
    exact exec_run_of_error hi (State.runPlan_of_bothLayouts_error (State.bothLayouts_unsupportedFormat hcode))
  case dimensions =>
    exact exec_run_of_error hi (State.runPlan_of_bothLayouts_error (State.bothLayouts_invalidDimension hcode hzero))
  case checks =>
    exact State.validate_reportsInOrder fun err h => exec_run_of_error hi (State.runPlan_of_validate hf h)

/-! ### The checks of a SCALE_PLANE -/

/-- A role's code is the one it was read from (R124). -/
theorem Role.code_of_ofCode : ∀ code : BitVec 2, ∀ role ∈ Role.ofCode code, role.code = code := by decide

/-- The plane that carries the role of a code (R148). -/
theorem layout_planeOf_of_code {w h : Nat} {g : PlaneGeom} (hrole : Role.ofCode code = some role)
    (hg : g ∈ layout fmt w h) (hcode : g.role.code = code) : (layout fmt w h).planeOf role = some g := by
  obtain rfl : g.role = role := by simpa [← hcode, Role.ofCode_code] using hrole
  exact layout_planeOf hg

/-- The decode check of a SCALE_PLANE fails exactly under conditions 6 and 7 of R127. -/
theorem decodeCheck_eq_false {il : Bool} :
    (roleAllowed code && fieldAllowed il field) = false ↔ code = 3#2 ∨ field = .f1 ∧ il = false := by
  simp only [roleAllowed, fieldAllowed, Bool.and_eq_false_iff, Bool.or_eq_false_iff, bne_eq_false_iff_eq]
  cases field <;> simp

/-- An illegal SCALE_PLANE is reported before EFFM is recorded (R314, R316 step 1). -/
theorem scalePlane_illegalCommand (method : Method)
    (hillegal : code = 3#2 ∨ field = .f1 ∧ s.format.interlaced = false) :
    scalePlane method code field s = s.fail .illegalCommand := by
  rcases scalePlane_cases method code field s with he | ⟨role, hrole, hfield, -⟩
  · exact he
  · have hcheck := decodeCheck_eq_false.2 hillegal
    simp [← Role.ofCode_isSome, hrole, hfield] at hcheck

theorem exec_scalePlane_of_error (hi : (i, method) ∈ planeForms code field) (hrole : Role.ofCode code = some role)
    (hfield : field = .f1 → s.format.interlaced = true) (h : s.scalePlan method role field = .error err) :
    exec i s = .next (settled (errStatus err.bits (withMethod (s.effMethod method) s.status)) s) := by
  obtain ⟨he, -⟩ := exec_planeForms method code field s hi
  rw [he, scalePlane, hrole]
  simp only [fieldAllowed_of hfield, if_true, h, State.completeScale_error]

theorem State.scalePlan_of_bothLayouts_error (h : s.bothLayouts = .error err) :
    s.scalePlan method role field = .error err := by
  simp [State.scalePlan, h]

/-- A role no plane of the source carries is reported of a frame that has layouts (R316 step 4a, R317). -/
theorem State.scalePlan_planeRoleInvalid (hf : Frames s fmt lsrc ldst) (hnone : lsrc.planeOf role = none) :
    s.scalePlan method role field = .error .planeRoleInvalid := by
  simp [State.scalePlan, State.bothLayouts_ok_iff.2 hf, State.roleWork, hnone]

theorem State.scalePlan_of_validate {gs gd : PlaneGeom} (hf : Frames s fmt lsrc ldst)
    (hsrc : lsrc.planeOf role = some gs) (hdst : ldst.planeOf role = some gd)
    (h : s.validate lsrc ldst [s.planeField field gs gd] = some err) : s.scalePlan method role field = .error err := by
  simp [State.scalePlan, State.bothLayouts_ok_iff.2 hf, State.roleWork, hsrc, hdst, State.planFor, h]

/-- Settles O43: the decode check, the layouts, the role, then the steps of `validate` on the addressed plane-field. -/
theorem scalePlaneReportsTheFirstFailingCheck : Obligations.ScalePlaneReportsTheFirstFailingCheck := by
  unfold Obligations.ScalePlaneReportsTheFirstFailingCheck
  intro code field i m hi s fails
  refine ⟨fun hillegal => ?decode, fun hcode hfield => ?_⟩
  case decode =>
    obtain ⟨he, -⟩ := exec_planeForms m code field s hi
    rw [he, scalePlane_illegalCommand m hillegal, State.fail_eq_settled]
    rfl
  obtain ⟨role, hrole⟩ := Option.ne_none_iff_exists'.1 (mt (Role.ofCode_eq_none_iff code).1 hcode)
  have reported : ∀ err, s.scalePlan m role field = .error err → fails err.bits := fun err =>
    exec_scalePlane_of_error hi hrole hfield
  refine ⟨fun hfmt => ?format, fun hfmt hzero => ?dimensions, fun fmt lsrc ldst hf => ⟨fun hlacks => ?role,
    fun gs hgs gd hgd hcs hcd => ?checks⟩⟩
  case format =>
    exact reported _ (State.scalePlan_of_bothLayouts_error (State.bothLayouts_unsupportedFormat hfmt))
  case dimensions =>
    exact reported _ (State.scalePlan_of_bothLayouts_error (State.bothLayouts_invalidDimension hfmt hzero))
  case role =>
    refine reported _ (State.scalePlan_planeRoleInvalid hf (List.find?_eq_none.2 fun g hg heq => hlacks g hg ?_))
    rw [eq_of_beq heq]
    exact Role.code_of_ofCode code role hrole
  case checks =>
    have hsrc : lsrc.planeOf role = some gs := by
      rw [hf.lsrc] at hgs ⊢
      exact layout_planeOf_of_code hrole hgs hcs
    have hdst : ldst.planeOf role = some gd := by
      rw [hf.ldst] at hgd ⊢
      exact layout_planeOf_of_code hrole hgd hcd
    exact State.validate_reportsInOrder fun err h => reported err (State.scalePlan_of_validate hf hsrc hdst h)

/-! ### The illegal word in flight -/

/-- A command that is illegal in the present interlace state completes with IllegalCommand (R127 conditions 6 and 7,
R314). -/
theorem exec_of_not_legal (h : i.legal s.format.interlaced = false) : exec i s = .next (s.fail .illegalCommand) := by
  cases i with
  | nop | layout _ | runNearest | runBilinear | runFourTap | clear => cases h
  | locate sel code field =>
    exact exec_locate_of_error (State.locateResult_illegalCommand (decodeCheck_eq_false.1 h))
  | scalePlaneNearest code field | scalePlaneBilinear code field | scalePlaneFourTap code field =>
    exact congrArg Host.Outcome.next (scalePlane_illegalCommand _ (decodeCheck_eq_false.1 h))

/-- Settles O5: an illegal word either does not decode, or decodes to a command that is not legal here. -/
theorem illegalWordEndsWithIllegalCommand : Obligations.IllegalWordEndsWithIllegalCommand := by
  unfold Obligations.IllegalWordEndsWithIllegalCommand
  intro s w hcur hillegal
  have hfail : blockTurn s = .next (s.fail .illegalCommand) := by
    rcases blockTurn_cases s with ⟨hidle, -⟩ | ⟨_, _, -, -, he⟩ | ⟨v, i, hv, hdec, he⟩
    · rw [hcur] at hidle
      cases hidle
    · exact he
    · obtain rfl : v = w := by simpa [hcur] using hv.symm
      have hnone := (illegalWordsAreTheSevenConditions v s.format.interlaced).1 hillegal
      rw [he, exec_of_not_legal (Bool.eq_false_iff.2 fun hlegal => hnone ⟨i, hdec, hlegal⟩)]
  rw [hfail, State.fail_eq_settled]
  rfl

/-! ### Error or success -/

/-- The two ways a command ends, with the whole state of the error: STATUS takes a code some command reports and EFFM
may have been recorded, and nothing else changes (R320, R321). -/
def ErrorOrDone (s : State) (o : Host.Outcome State Fault Refusal) : Prop :=
  (∃ err : ErrorCode, err.Reported ∧ ∃ effm,
    o = .next (settled (errStatus err.bits { s.status with effm := effm }) s)) ∨
  ∃ t, o = .next t ∧ t.status.done = true

theorem errorOrDone_fail (h : err.Reported) : ErrorOrDone s (.next (s.fail err)) :=
  .inl ⟨err, h, s.status.effm, rfl⟩

theorem completeScale_errorOrDone (isRun : Bool) {plan : Except ErrorCode Plan}
    (h : ∀ err, plan = .error err → err.Reported) : ErrorOrDone s (.next (s.completeScale method isRun plan)) := by
  cases plan with
  | error err => exact .inl ⟨err, h err rfl, _, congrArg _ (State.completeScale_error ..)⟩
  | ok p => exact .inr ⟨_, rfl, rfl⟩

theorem scalePlane_errorOrDone : ErrorOrDone s (.next (scalePlane method code field s)) := by
  rcases scalePlane_cases method code field s with he | ⟨role, -, -, he⟩ <;> rw [he]
  · exact errorOrDone_fail ErrorCode.reported_illegalCommand
  · exact completeScale_errorOrDone false fun _ => State.scalePlan_reported

theorem run_errorOrDone : ErrorOrDone s (.next (run method s)) :=
  completeScale_errorOrDone true fun _ => State.runPlan_reported

theorem exec_errorOrDone (hi : i ≠ .clear) (s : State) : ErrorOrDone s (exec i s) := by
  cases i with
  | nop => exact .inr ⟨_, exec_nop s, rfl⟩
  | layout sel =>
    rw [exec_layout]
    rcases execLayout_cases sel s with ⟨err, hl, he⟩ | ⟨l, -, he⟩ <;> rw [he]
    · exact errorOrDone_fail (State.frameLayout_reported hl)
    · exact .inr ⟨_, rfl, rfl⟩
  | locate sel code field =>
    rw [exec_locate]
    rcases execLocate_cases sel code field s with ⟨err, hl, he⟩ | ⟨e, -, he⟩ <;> rw [he]
    · exact errorOrDone_fail (State.locateResult_reported hl)
    · exact .inr ⟨_, rfl, rfl⟩
  | scalePlaneNearest | scalePlaneBilinear | scalePlaneFourTap => exact scalePlane_errorOrDone
  | runNearest | runBilinear | runFourTap => exact run_errorOrDone
  | clear => exact absurd rfl hi

/-- Settles O44: an outcome without DONE is the error one, whose state is written out. -/
theorem errorCompletionsTouchNothing : Obligations.ErrorCompletionsTouchNothing := by
  unfold Obligations.ErrorCompletionsTouchNothing
  intro i s t hi hexec hdone
  rcases exec_errorOrDone hi s with ⟨err, ⟨hcode, -⟩, effm, he⟩ | ⟨u, he, hu⟩
  · obtain rfl := Host.Outcome.next.inj (he.symm.trans hexec)
    exact ⟨rfl, rfl, rfl, hcode, rfl, rfl, rfl⟩
  · obtain rfl := Host.Outcome.next.inj (he.symm.trans hexec)
    rw [hu] at hdone
    cases hdone

end Sys2Proof.Machine
end

section
/-! SUPPORT. How a step stops, and when the interrupt output is deasserted (spec 10_state.md R34; 60_exceptions.md R312,
R330, R331, R344). -/

namespace Sys2Proof.Machine

open Sys2Proof.Claims

variable {s : State} {st : Status}

/-! ### Steps that answer a next state -/

theorem exec_answers (i : Instr) (s : State) : ∃ t, exec i s = .next t := by
  obtain ⟨t, ht, -⟩ := everyCommandCompletes i s
  exact ⟨t, ht⟩

theorem blockTurn_answers (s : State) : ∃ t, blockTurn s = .next t := by
  rcases blockTurn_cases s with ⟨-, he⟩ | ⟨_, _, -, -, he⟩ | ⟨_, i, -, -, he⟩ <;> rw [he]
  · exact ⟨_, rfl⟩
  · exact ⟨_, rfl⟩
  · exact exec_answers i s

theorem cmdWrite_answers (w : Word) (s : State) : ∃ t, cmdWrite w s = .next t := by
  rcases cmdWrite_cases w s with ⟨-, he⟩ | ⟨-, -, he⟩ | ⟨-, -, he⟩ <;> rw [he]
  · exact ⟨_, rfl⟩
  · exact exec_answers .clear s
  · exact ⟨_, rfl⟩

theorem registerWrite_answers (r : Reg) (v : Word) (s : State) : ∃ t, registerWrite r v s = .next t := by
  rcases registerWrite_cases r v s with ⟨-, he⟩ | ⟨-, he⟩ | ⟨-, -, -, he⟩ | ⟨-, -, he⟩ <;> rw [he]
  · exact ⟨_, rfl⟩
  · exact cmdWrite_answers v s
  · exact ⟨_, rfl⟩
  · exact ⟨_, rfl⟩

/-- Coherent flags hold no code that no command reports (R44, R312). -/
theorem Status.Coherent.neverRaised_errcode (h : st.Coherent) : neverRaised st.errcode = false := by
  cases herr : st.err with
  | false => rw [h.codeQuiet herr]; rfl
  | true => exact (h.codeRaised herr).2

/-- With coherent flags the fault of a STATUS no run shows does not arise (R312). -/
theorem registerRead_answers (h : s.status.Coherent) (r : Reg) : ∃ t, registerRead r s = .next t := by
  rcases registerRead_cases r s with ⟨-, hraised, -⟩ | ⟨v, he | he⟩
  · rw [h.neverRaised_errcode] at hraised
    cases hraised
  · exact ⟨_, he⟩
  · exact ⟨_, he⟩

/-! ### The two stops of the machine -/

/-- A register access is admitted: 32 bits wide, at a multiple of 4, inside the window (R34). -/
def Admitted (bytes : Nat) (offset : Int) : Prop := bytes = 4 ∧ 0 ≤ offset ∧ offset < 256 ∧ offset % 4 = 0

/-- An access to the window answers a next state, or it is not admitted and is refused by its size and offset. -/
def AnswersIfAdmitted (bytes : Nat) (offset : Int) (o : Host.Outcome State Fault Refusal) : Prop :=
  (∃ t, o = .next t) ∨ ¬Admitted bytes offset ∧ o = .refused (.registerAccess bytes offset)

theorem windowWrite_answers (bytes : Nat) (offset : Int) (v : Word) (s : State) :
    AnswersIfAdmitted bytes offset (windowWrite bytes offset v s) := by
  obtain ⟨-, hadmitted⟩ := onlyAlignedWordAccessesAreAdmitted s bytes offset v
  rcases windowWrite_cases bytes offset v s with he | he | ⟨r, he⟩
  · exact .inr ⟨fun h => (hadmitted h _).1 he, he⟩
  · exact .inl ⟨_, he⟩
  · exact .inl (he ▸ registerWrite_answers r v s)

theorem windowRead_answers (h : s.status.Coherent) (bytes : Nat) (offset : Int) :
    AnswersIfAdmitted bytes offset (windowRead bytes offset s) := by
  obtain ⟨-, hadmitted⟩ := onlyAlignedWordAccessesAreAdmitted s bytes offset 0#32
  rcases windowRead_cases bytes offset s with he | he | ⟨r, he⟩
  · exact .inr ⟨fun h => (hadmitted h _).2 he, he⟩
  · exact .inl ⟨_, he⟩
  · exact .inl (he ▸ registerRead_answers h r)

/-- The access to the window an event makes: its size and offset. -/
def IsAccess (bytes : Nat) (offset : Int) (e : HostEvent) : Prop :=
  (∃ v, e = .regWrite bytes offset v) ∨ e = .regRead bytes offset

/-- Every event answers a next state but a register access that is not admitted (R34, R312). -/
theorem hostStep_answers (h : s.status.Coherent) (e : HostEvent) :
    (∃ t, hostStep e s = .next t) ∨
    ∃ bytes offset, IsAccess bytes offset e ∧ ¬Admitted bytes offset ∧
      hostStep e s = .refused (.registerAccess bytes offset) := by
  cases e with
  | regWrite bytes offset v =>
    exact (windowWrite_answers bytes offset v s).imp id fun hr => ⟨bytes, offset, .inl ⟨v, rfl⟩, hr⟩
  | regRead bytes offset =>
    exact (windowRead_answers h bytes offset).imp id fun hr => ⟨bytes, offset, .inr rfl, hr⟩
  | memWrite | memRead | reset => exact .inl ⟨_, rfl⟩
  | blockTurn => exact .inl (blockTurn_answers s)

/-- Every step answers a next state, but for a scheduled register access that is not admitted (R34, R312). -/
theorem step_answers (h : s.Inv) :
    (∃ t, step s = .next t) ∨
    ∃ bytes offset e rest, s.schedule = e :: rest ∧ IsAccess bytes offset e ∧ ¬Admitted bytes offset ∧
      step s = .refused (.registerAccess bytes offset) := by
  rcases step_cases s with ⟨-, he⟩ | ⟨e, rest, hs, he⟩ <;> rw [he]
  · exact .inl (blockTurn_answers s)
  · have hcoherent : ({ s with schedule := rest } : State).status.Coherent := h.status
    refine (hostStep_answers hcoherent e).imp id ?_
    rintro ⟨bytes, offset, hr⟩
    exact ⟨bytes, offset, e, rest, hs, hr⟩

/-- Settles O57: a step either answers, or is the refusal of the access the schedule names. -/
theorem noStepFaults : Obligations.NoStepFaults := by
  unfold Obligations.NoStepFaults
  intro s h
  rcases step_answers h with ⟨t, he⟩ | ⟨bytes, offset, e, rest, hs, haccess, hnot, he⟩ <;> rw [he]
  · exact ⟨nofun, nofun⟩
  · refine ⟨nofun, ?_⟩
    rintro _ ⟨⟩
    refine ⟨bytes, offset, rest, rfl, hnot, ?_⟩
    rw [hs]
    rcases haccess with ⟨v, rfl⟩ | rfl
    · exact .inl ⟨v, rfl⟩
    · exact .inr rfl

/-! ### The interrupt output -/

theorem State.irq_iff (s : State) : s.irq = true ↔
    s.irqEn.doneIe = true ∧ s.status.done = true ∨ s.irqEn.errIe = true ∧ s.status.err = true := by
  simp [State.irq]

/-- Without DONE and ERR there is no cause for the interrupt (R330). -/
theorem State.irq_of_quiet (hdone : s.status.done = false) (herr : s.status.err = false) : s.irq = false := by
  simp [State.irq, hdone, herr]

/-- Without enables no cause asserts it (R330). -/
theorem State.irq_of_disabled (hdone : s.irqEn.doneIe = false) (herr : s.irqEn.errIe = false) : s.irq = false := by
  simp [State.irq, hdone, herr]

/-- Settles O17: acceptance, CLEAR and reset clear DONE and ERR, and a write of 0 to IRQ_EN clears both enables. -/
theorem interruptOutput : Obligations.InterruptOutput := by
  unfold Obligations.InterruptOutput
  refine ⟨State.irq_iff, fun s t w hb h => ?cmd, fun s t h => ?reset, fun s t h => ?enables⟩
  case cmd =>
    rw [after_eq_hostStep, hostStep_issue] at h
    rcases cmdWrite_cases w s with ⟨hbusy, -⟩ | ⟨-, -, he⟩ | ⟨-, -, he⟩
    · rw [hb] at hbusy
      cases hbusy
    · obtain rfl := Host.Outcome.next.inj ((he.trans (exec_clear s)).symm.trans h)
      exact s.irq_cleared
    · obtain rfl := Host.Outcome.next.inj (he.symm.trans h)
      exact State.irq_of_quiet rfl rfl
  case reset =>
    obtain rfl := Host.Outcome.next.inj ((after_eq_hostStep .reset s).symm.trans h)
    exact State.irq_of_quiet rfl rfl
  case enables =>
    have hirq : (0x00C, Reg.irqEn) ∈ registerMap := by decide
    have he := (after_write hirq 0#32 s).trans (registerWrite_irqEn 0#32 s)
    obtain rfl := Host.Outcome.next.inj (he.symm.trans h)
    exact State.irq_of_disabled rfl rfl

end Sys2Proof.Machine
end

section
/-! SUPPORT. The reset input, and the bytes that a command cut short leaves free (spec 70_reset_and_hazards.md R350;
60_exceptions.md R321; log 11). -/

namespace Sys2Proof.Machine

open Sys2Proof.Claims

variable {s : State} {w : Word} {i : Instr} {a : Nat}

/-! ### The bytes the command in flight could write -/

theorem State.inFlightAddrs_idle (hcur : s.curCmd = none) : s.inFlightAddrs = [] := by
  simp [State.inFlightAddrs, hcur]

theorem State.inFlightAddrs_illegal {e : DecodeError} (hcur : s.curCmd = some w) (hdec : decode w = .error e) :
    s.inFlightAddrs = [] := by
  simp [State.inFlightAddrs, hcur, hdec]

/-- A legal word in flight could write its plan's destination sample bytes and scratch (R350, log 11). -/
theorem State.mem_inFlightAddrs_iff (hcur : s.curCmd = some w) (hdec : decode w = .ok i) :
    a ∈ s.inFlightAddrs ↔ ∃ p, s.planOf i = some p ∧ (a ∈ p.destAddrs ∨ s.scrRegion.covers a = true) := by
  cases hp : s.planOf i with
  | none => simp [State.inFlightAddrs, hcur, hdec, hp]
  | some p => simp [State.inFlightAddrs, hcur, hdec, hp, Region.mem_addrs]

/-! ### The state after a reset -/

theorem hostStep_reset (s : State) : hostStep .reset s = .next (resetBlock s) := rfl

/-- No register depends on what a reset keeps (R68, R350). -/
theorem readReg_resetBlock (s : State) (r : Reg) : (resetBlock s).readReg r = State.reset.readReg r := by
  cases r <;> rfl

theorem resetBlock_irq (s : State) : (resetBlock s).irq = false := State.irq_of_quiet rfl rfl

theorem resetBlock_read8_other (ha : a ∉ s.inFlightAddrs) : (resetBlock s).mem.read8 a = s.mem.read8 a :=
  Memory.read8_congr (Memory.get?_writeAll_other (by rwa [drawnCells_addrs]) s.mem)

theorem resetBlock_read8_inFlight (ha : a ∈ s.inFlightAddrs) :
    (resetBlock s).mem.read8 a = Config.drawByte s.draws a :=
  Memory.read8_of_get? (Memory.get?_writeAll_drawnCells ha s.mem)

/-- Settles O19: registers as after State.reset, and memory drawn on exactly the bytes in flight. -/
theorem resetInput : Obligations.ResetInput := by
  unfold Obligations.ResetInput
  intro s
  have hreset : after .reset s = .next (resetBlock s) := (after_eq_hostStep .reset s).trans (hostStep_reset s)
  have hregs (r : Reg) : (resetBlock s).readReg r = if r = .id then 0x56534331#32 else 0#32 :=
    (readReg_resetBlock s r).trans (readReg_reset r)
  exact ⟨resetBlock s, hreset, hregs, rfl, resetBlock_irq s, fun _ => resetBlock_read8_other,
    fun _ => resetBlock_read8_inFlight, resetBlock_params s, State.inFlightAddrs_idle,
    fun _ _ => State.inFlightAddrs_illegal, fun _ _ hcur hdec _ => State.mem_inFlightAddrs_iff hcur hdec⟩

end Sys2Proof.Machine
end
